-- ==== Sys2Proof/Word.lean ====
section
/-!
DEFINITION. The word types of the block: what the spec treats as bits (10_state.md R20, 30_encoding.md R90).
-/
namespace Sys2Proof

/-- A byte: a RAM byte, A, X, Y, SP, the operand `v8`. -/
abbrev Byte := BitVec 8

/-- A bus or APU register address (20_memory.md R60, D2), and the program counter (R26). -/
abbrev Addr := BitVec 16

/-- A 16-bit data word, the operand `v16` (20_memory.md R64). -/
abbrev Half := BitVec 16

/-- A cycle number: `S.CYCLES`, `S.WM`, the side operand `c` (10_state.md R30, R35). -/
abbrev Cycle := BitVec 64

/-- The bits of one IEEE 754 binary32 sample; the FIFO does not interpret them (44_sample_buffer_fifo.md R271). -/
abbrev Sample := BitVec 32

/-- A 40-bit command word (30_encoding.md R91). -/
abbrev CmdWord := BitVec 40

/-- An 11-bit oscillator period (10_state.md R31, R32). -/
abbrev Period := BitVec 11

/-- A 5-bit channel mask, bit 0 SQUARE1 to bit 4 DMC (10_state.md R34). -/
abbrev Mask := BitVec 5

end Sys2Proof
end

