-- ==== Sys2Proof/Config.lean ====
section
/-!
DEFINITION. The fixed parameters of 00_scope.md R7, each the number the spec gives. The open parameters of R8 are in
`Machine.PowerOn` and `Machine.State`: the power-on draws, FIFO_DEPTH (the field `fifoDepth`) and `toF32` (the field
`conversion`); a `toF32` other than the spec's default is the constant `implToF32` below.
-/
namespace Sys2Proof.Config

/-- `CPU_FREQ`, cycles per second (R7, R218). -/
def cpuFreq : Nat := 1789773

/-- `RAM_SIZE` in bytes (R7, R29). -/
def ramSize : Nat := 2048

/-- The first bus address above the RAM window (R7, R61). -/
def windowEnd : Addr := 0x2000

/-- `STACK_BASE` (R7, R24). -/
def stackBase : Addr := 0x0100

/-- `SP_POWER_ON` (R7, R149). -/
def spPowerOn : Byte := 0xFD

/-- The last value of the 64-bit cycle counter, 2^64 - 1 (R7, 10_state.md R30). -/
def cycleMax : Cycle := 0xFFFFFFFFFFFFFFFF

/-- A pulse oscillator whose period is below this is muted (R7, R241). -/
def pulseMute : Nat := 8

/-- A triangle oscillator whose period is below this is muted (R7, R246). -/
def triangleMute : Nat := 2

/-- The mixing coefficients, exact decimal rationals (R7, R221, R225). -/
def mixPulse : Rat := 752 / 100000
def mixTriangle : Rat := 851 / 100000
def mixNoise : Rat := 494 / 100000
def mixDmc : Rat := 335 / 100000

/-- The parameter `toF32` of an implementation that does not round as the spec's default does (00_scope.md R8,
42_apu_orchestrator.md R225): nothing is known of it, so a statement about it holds for every conversion (log entry 8). -/
opaque implToF32 : Rat → Sample

end Sys2Proof.Config
end

