-- ==== Sys2Proof/Syntax.lean ====
section
/-!
DEFINITION. The requests of the block (30_encoding.md R90) and their abstract syntax: one constructor of `Instr` per row
of spec/opcode_table.json.
-/
namespace Sys2Proof

/-- The two agents (00_scope.md R10). -/
inductive Agent where
  | sim
  | audio
  deriving DecidableEq, Repr

/-- A request as it is issued: the command word, the side operands and the issuing agent (30_encoding.md R90). -/
structure Request where
  w : CmdWord
  c : Cycle
  n : BitVec 32
  samples : List Sample
  agent : Agent
  deriving DecidableEq, Repr

/-- The rows of the APU register map (30_encoding.md R97, rules R200 to R212). -/
inductive ApuReg where
  | sq1Ctrl
  | sq1Ramp
  | sq1Lo
  | sq1Hi
  | sq2Ctrl
  | sq2Ramp
  | sq2Lo
  | sq2Hi
  | triCtrl
  | triLo
  | triHi
  | enable
  | ignored
  deriving DecidableEq, Repr

/-- Why a command word is illegal (30_encoding.md R95): each is the model fault ILLEGAL. -/
inductive IllegalReason where
  /-- R95 item 1: the opcode is not in the table of R94. -/
  | unassignedOpcode
  /-- R95 item 2: a reserved bit of the row is 1. -/
  | reservedBit
  /-- R95 item 3: `f` is 4 or 5. -/
  | badFlag
  /-- R95 item 4: `ch` is 5, 6 or 7. -/
  | badChannel
  deriving DecidableEq, Repr

/-- The instructions: the 33 command rows of 30_encoding.md R94 with their operands (R93), and the 13 APUREG rows of the
table (R97), which name an `APUWR` by the register its address selects (DEDUCED, safe, log entry 9). -/
inductive Instr where
  | rd8 (addr : Addr)
  | wr8 (addr : Addr) (v8 : Byte)
  | rd16 (addr : Addr)
  | wr16 (addr : Addr) (v16 : Half)
  | fetch
  | push8 (v8 : Byte)
  | pop8
  | push16 (v16 : Half)
  | pop16
  | reset
  | geta
  | seta (v8 : Byte)
  | getx
  | setx (v8 : Byte)
  | gety
  | sety (v8 : Byte)
  | getsp
  | setsp (v8 : Byte)
  | getpc
  | setpc (v16 : Half)
  | getp
  | setp (v8 : Byte)
  | getf (f : BitVec 3)
  | setf (f : BitVec 3) (b : Bool)
  | getcyc
  | apuinit (attach : Bool) (hostinit : Mask) (c : Cycle)
  | apuwr (addr : Addr) (v8 : Byte) (c : Cycle)
  | toggle (ch : BitVec 3)
  | run (c : Cycle)
  | fifonew (c : Cycle)
  | fifowr (xs : List Sample)
  | fiford (n : BitVec 32)
  | fifoclr
  | apuwrSq1Ctrl (v8 : Byte) (c : Cycle)
  | apuwrSq1Ramp (v8 : Byte) (c : Cycle)
  | apuwrSq1Lo (v8 : Byte) (c : Cycle)
  | apuwrSq1Hi (v8 : Byte) (c : Cycle)
  | apuwrSq2Ctrl (v8 : Byte) (c : Cycle)
  | apuwrSq2Ramp (v8 : Byte) (c : Cycle)
  | apuwrSq2Lo (v8 : Byte) (c : Cycle)
  | apuwrSq2Hi (v8 : Byte) (c : Cycle)
  | apuwrTriCtrl (v8 : Byte) (c : Cycle)
  | apuwrTriLo (v8 : Byte) (c : Cycle)
  | apuwrTriHi (v8 : Byte) (c : Cycle)
  | apuwrEnable (v8 : Byte) (c : Cycle)
  | apuwrIgnored (addr : Addr) (v8 : Byte) (c : Cycle)
  deriving DecidableEq, Repr

end Sys2Proof
end

