-- ==== Sys2Proof/WellFormed.lean ====
section
/-!
DEFINITION. Which instructions are well formed: the operand values 30_encoding.md R93 calls legal and the encoder has a word
for. Two fields are narrower than their bits (R95 items 3 and 4), and the row APUWR.IGNORED has the lowest priority (R97).
-/
namespace Sys2Proof

/-- The twelve listed addresses of the APU register map (30_encoding.md R97). -/
def listedApuAddrs : List Addr :=
  [0x4000, 0x4001, 0x4002, 0x4003, 0x4004, 0x4005, 0x4006, 0x4007, 0x4008, 0x400A, 0x400B, 0x4015]

/-- Well-formedness of an instruction: `f` in {0, 1, 2, 3, 6, 7}, `ch` in 0..4 (30_encoding.md R93), and the
lowest-priority row APUWR.IGNORED only for an address no other row matches (R97, R212). -/
def Instr.wellFormed : Instr → Bool
  | .rd8 _ => true
  | .wr8 _ _ => true
  | .rd16 _ => true
  | .wr16 _ _ => true
  | .fetch => true
  | .push8 _ => true
  | .pop8 => true
  | .push16 _ => true
  | .pop16 => true
  | .reset => true
  | .geta => true
  | .seta _ => true
  | .getx => true
  | .setx _ => true
  | .gety => true
  | .sety _ => true
  | .getsp => true
  | .setsp _ => true
  | .getpc => true
  | .setpc _ => true
  | .getp => true
  | .setp _ => true
  | .getf f => f != 4 && f != 5
  | .setf f _ => f != 4 && f != 5
  | .getcyc => true
  | .apuinit _ _ _ => true
  | .apuwr _ _ _ => true
  | .toggle ch => decide (ch.toNat < 5)
  | .run _ => true
  | .fifonew _ => true
  | .fifowr _ => true
  | .fiford _ => true
  | .fifoclr => true
  | .apuwrSq1Ctrl _ _ => true
  | .apuwrSq1Ramp _ _ => true
  | .apuwrSq1Lo _ _ => true
  | .apuwrSq1Hi _ _ => true
  | .apuwrSq2Ctrl _ _ => true
  | .apuwrSq2Ramp _ _ => true
  | .apuwrSq2Lo _ _ => true
  | .apuwrSq2Hi _ _ => true
  | .apuwrTriCtrl _ _ => true
  | .apuwrTriLo _ _ => true
  | .apuwrTriHi _ _ => true
  | .apuwrEnable _ _ => true
  | .apuwrIgnored addr _ _ => !(listedApuAddrs.contains addr)

end Sys2Proof
end

