-- ==== Sys2Proof/Decode.lean ====
section
/-!
DEFINITION. Decoding a request into an instruction (30_encoding.md R91 to R98), total, rejecting by name, and the encoder
written from the same table. The command word is one format, so decoding is the opcode byte and the reserved-zero check.
-/
namespace Sys2Proof

/-! ### The command word (30_encoding.md R91) -/

/-- `w[39:32]`. -/
def opField (w : CmdWord) : BitVec 8 := w.extractLsb' 32 8

/-- `w[31:16]`. -/
def addrField (w : CmdWord) : BitVec 16 := w.extractLsb' 16 16

/-- `w[15:0]`. -/
def dataField (w : CmdWord) : BitVec 16 := w.extractLsb' 0 16

/-- The word `{op, a, d}`. -/
def cmdWord (op : BitVec 8) (a d : BitVec 16) : CmdWord := (op ++ a ++ d).cast rfl

/-! ### Operand fields (30_encoding.md R93) -/

/-- `v8 = d[7:0]`. -/
def v8Of (d : BitVec 16) : Byte := d.extractLsb' 0 8

/-- `f = a[2:0]`. -/
def flagOf (a : BitVec 16) : BitVec 3 := a.extractLsb' 0 3

/-- `b = d[0]`. -/
def bitOf (d : BitVec 16) : Bool := d.getLsbD 0

/-- `ch = d[2:0]`. -/
def channelOf (d : BitVec 16) : BitVec 3 := d.extractLsb' 0 3

/-- `hostinit = d[4:0]`. -/
def hostinitOf (d : BitVec 16) : Mask := d.extractLsb' 0 5

/-- `attach = d[8]`. -/
def attachOf (d : BitVec 16) : Bool := d.getLsbD 8

/-- The legality of a flag selector (R95 item 3): bits 4 and 5 of the status byte are not flags. -/
def checkFlag (f : BitVec 3) (i : Instr) : Except IllegalReason Instr :=
  if f = 4 ∨ f = 5 then .error .badFlag else .ok i

/-- The legality of a channel id (R95 item 4): 0..4. -/
def checkChannel (ch : BitVec 3) (i : Instr) : Except IllegalReason Instr :=
  if ch.toNat < 5 then .ok i else .error .badChannel

/-- The instruction if the row's reserved bits are all 0 (R95 item 2). -/
def ifReservedZero (zero : Bool) (r : Except IllegalReason Instr) : Except IllegalReason Instr :=
  if zero then r else .error .reservedBit

/-- The rows of 30_encoding.md R94: `-` in the `a` or `d` column is the test that the field is 0. The side operands come
from the request `r`; those a row does not use are ignored (R90). -/
def decodeFields (op : BitVec 8) (a d : BitVec 16) (r : Request) : Except IllegalReason Instr :=
  match op with
  | 0x01#8 => ifReservedZero (d == 0) (.ok (.rd8 a))
  | 0x02#8 => ifReservedZero (d.extractLsb' 8 8 == 0) (.ok (.wr8 a (v8Of d)))
  | 0x03#8 => ifReservedZero (d == 0) (.ok (.rd16 a))
  | 0x04#8 => .ok (.wr16 a d)
  | 0x05#8 => ifReservedZero (a == 0 && d == 0) (.ok .fetch)
  | 0x06#8 => ifReservedZero (a == 0 && d.extractLsb' 8 8 == 0) (.ok (.push8 (v8Of d)))
  | 0x07#8 => ifReservedZero (a == 0 && d == 0) (.ok .pop8)
  | 0x08#8 => ifReservedZero (a == 0) (.ok (.push16 d))
  | 0x09#8 => ifReservedZero (a == 0 && d == 0) (.ok .pop16)
  | 0x0A#8 => ifReservedZero (a == 0 && d == 0) (.ok .reset)
  | 0x10#8 => ifReservedZero (a == 0 && d == 0) (.ok .geta)
  | 0x11#8 => ifReservedZero (a == 0 && d.extractLsb' 8 8 == 0) (.ok (.seta (v8Of d)))
  | 0x12#8 => ifReservedZero (a == 0 && d == 0) (.ok .getx)
  | 0x13#8 => ifReservedZero (a == 0 && d.extractLsb' 8 8 == 0) (.ok (.setx (v8Of d)))
  | 0x14#8 => ifReservedZero (a == 0 && d == 0) (.ok .gety)
  | 0x15#8 => ifReservedZero (a == 0 && d.extractLsb' 8 8 == 0) (.ok (.sety (v8Of d)))
  | 0x16#8 => ifReservedZero (a == 0 && d == 0) (.ok .getsp)
  | 0x17#8 => ifReservedZero (a == 0 && d.extractLsb' 8 8 == 0) (.ok (.setsp (v8Of d)))
  | 0x18#8 => ifReservedZero (a == 0 && d == 0) (.ok .getpc)
  | 0x19#8 => ifReservedZero (a == 0) (.ok (.setpc d))
  | 0x1A#8 => ifReservedZero (a == 0 && d == 0) (.ok .getp)
  | 0x1B#8 => ifReservedZero (a == 0 && d.extractLsb' 8 8 == 0) (.ok (.setp (v8Of d)))
  | 0x1C#8 => ifReservedZero (a.extractLsb' 3 13 == 0 && d == 0) (checkFlag (flagOf a) (.getf (flagOf a)))
  | 0x1D#8 => ifReservedZero (a.extractLsb' 3 13 == 0 && d.extractLsb' 1 15 == 0)
      (checkFlag (flagOf a) (.setf (flagOf a) (bitOf d)))
  | 0x1E#8 => ifReservedZero (a == 0 && d == 0) (.ok .getcyc)
  | 0x20#8 => ifReservedZero (a == 0 && d.extractLsb' 9 7 == 0 && d.extractLsb' 5 3 == 0)
      (.ok (.apuinit (attachOf d) (hostinitOf d) r.c))
  | 0x21#8 => ifReservedZero (d.extractLsb' 8 8 == 0) (.ok (.apuwr a (v8Of d) r.c))
  | 0x22#8 => ifReservedZero (a == 0 && d.extractLsb' 3 13 == 0) (checkChannel (channelOf d) (.toggle (channelOf d)))
  | 0x23#8 => ifReservedZero (a == 0 && d == 0) (.ok (.run r.c))
  | 0x30#8 => ifReservedZero (a == 0 && d == 0) (.ok (.fifonew r.c))
  | 0x31#8 => ifReservedZero (a == 0 && d == 0) (.ok (.fifowr r.samples))
  | 0x32#8 => ifReservedZero (a == 0 && d == 0) (.ok (.fiford r.n))
  | 0x33#8 => ifReservedZero (a == 0 && d == 0) (.ok .fifoclr)
  | _ => .error .unassignedOpcode

/-- Decode a request (30_encoding.md R94, R95): total, every 40-bit word is one row or illegal. -/
def decode (r : Request) : Except IllegalReason Instr :=
  decodeFields (opField r.w) (addrField r.w) (dataField r.w) r

/-! ### The APU register map (30_encoding.md R97) -/

/-- The register an APU address selects: exact match on all 16 bits, any other address ignored (R97, R192). -/
def apuReg (addr : Addr) : ApuReg :=
  match addr with
  | 0x4000#16 => .sq1Ctrl
  | 0x4001#16 => .sq1Ramp
  | 0x4002#16 => .sq1Lo
  | 0x4003#16 => .sq1Hi
  | 0x4004#16 => .sq2Ctrl
  | 0x4005#16 => .sq2Ramp
  | 0x4006#16 => .sq2Lo
  | 0x4007#16 => .sq2Hi
  | 0x4008#16 => .triCtrl
  | 0x400A#16 => .triLo
  | 0x400B#16 => .triHi
  | 0x4015#16 => .enable
  | _ => .ignored

/-- The APUREG row of an `APUWR` (R97): the second level of the decode, by the address alone. -/
def apuRow (addr : Addr) (v8 : Byte) (c : Cycle) : Instr :=
  match apuReg addr with
  | .sq1Ctrl => .apuwrSq1Ctrl v8 c
  | .sq1Ramp => .apuwrSq1Ramp v8 c
  | .sq1Lo => .apuwrSq1Lo v8 c
  | .sq1Hi => .apuwrSq1Hi v8 c
  | .sq2Ctrl => .apuwrSq2Ctrl v8 c
  | .sq2Ramp => .apuwrSq2Ramp v8 c
  | .sq2Lo => .apuwrSq2Lo v8 c
  | .sq2Hi => .apuwrSq2Hi v8 c
  | .triCtrl => .apuwrTriCtrl v8 c
  | .triLo => .apuwrTriLo v8 c
  | .triHi => .apuwrTriHi v8 c
  | .enable => .apuwrEnable v8 c
  | .ignored => .apuwrIgnored addr v8 c

/-! ### The encoder -/

/-- The word of an instruction, from the rows of 30_encoding.md R94 and the addresses of R97. -/
def encodeWord : Instr → CmdWord
  | .rd8 addr => cmdWord 0x01 addr 0
  | .wr8 addr v8 => cmdWord 0x02 addr (v8.setWidth 16)
  | .rd16 addr => cmdWord 0x03 addr 0
  | .wr16 addr v16 => cmdWord 0x04 addr v16
  | .fetch => cmdWord 0x05 0 0
  | .push8 v8 => cmdWord 0x06 0 (v8.setWidth 16)
  | .pop8 => cmdWord 0x07 0 0
  | .push16 v16 => cmdWord 0x08 0 v16
  | .pop16 => cmdWord 0x09 0 0
  | .reset => cmdWord 0x0A 0 0
  | .geta => cmdWord 0x10 0 0
  | .seta v8 => cmdWord 0x11 0 (v8.setWidth 16)
  | .getx => cmdWord 0x12 0 0
  | .setx v8 => cmdWord 0x13 0 (v8.setWidth 16)
  | .gety => cmdWord 0x14 0 0
  | .sety v8 => cmdWord 0x15 0 (v8.setWidth 16)
  | .getsp => cmdWord 0x16 0 0
  | .setsp v8 => cmdWord 0x17 0 (v8.setWidth 16)
  | .getpc => cmdWord 0x18 0 0
  | .setpc v16 => cmdWord 0x19 0 v16
  | .getp => cmdWord 0x1A 0 0
  | .setp v8 => cmdWord 0x1B 0 (v8.setWidth 16)
  | .getf f => cmdWord 0x1C (f.setWidth 16) 0
  | .setf f b => cmdWord 0x1D (f.setWidth 16) ((BitVec.ofBool b).setWidth 16)
  | .getcyc => cmdWord 0x1E 0 0
  | .apuinit attach hostinit _ => cmdWord 0x20 0 (0#7 ++ BitVec.ofBool attach ++ 0#3 ++ hostinit)
  | .apuwr addr v8 _ => cmdWord 0x21 addr (v8.setWidth 16)
  | .toggle ch => cmdWord 0x22 0 (ch.setWidth 16)
  | .run _ => cmdWord 0x23 0 0
  | .fifonew _ => cmdWord 0x30 0 0
  | .fifowr _ => cmdWord 0x31 0 0
  | .fiford _ => cmdWord 0x32 0 0
  | .fifoclr => cmdWord 0x33 0 0
  | .apuwrSq1Ctrl v8 _ => cmdWord 0x21 0x4000 (v8.setWidth 16)
  | .apuwrSq1Ramp v8 _ => cmdWord 0x21 0x4001 (v8.setWidth 16)
  | .apuwrSq1Lo v8 _ => cmdWord 0x21 0x4002 (v8.setWidth 16)
  | .apuwrSq1Hi v8 _ => cmdWord 0x21 0x4003 (v8.setWidth 16)
  | .apuwrSq2Ctrl v8 _ => cmdWord 0x21 0x4004 (v8.setWidth 16)
  | .apuwrSq2Ramp v8 _ => cmdWord 0x21 0x4005 (v8.setWidth 16)
  | .apuwrSq2Lo v8 _ => cmdWord 0x21 0x4006 (v8.setWidth 16)
  | .apuwrSq2Hi v8 _ => cmdWord 0x21 0x4007 (v8.setWidth 16)
  | .apuwrTriCtrl v8 _ => cmdWord 0x21 0x4008 (v8.setWidth 16)
  | .apuwrTriLo v8 _ => cmdWord 0x21 0x400A (v8.setWidth 16)
  | .apuwrTriHi v8 _ => cmdWord 0x21 0x400B (v8.setWidth 16)
  | .apuwrEnable v8 _ => cmdWord 0x21 0x4015 (v8.setWidth 16)
  | .apuwrIgnored addr v8 _ => cmdWord 0x21 addr (v8.setWidth 16)

/-- The side operand `c` of an instruction, 0 where it uses none (30_encoding.md R94). -/
def cycleOperand : Instr → Cycle
  | .apuinit _ _ c | .apuwr _ _ c | .run c | .fifonew c => c
  | .apuwrSq1Ctrl _ c | .apuwrSq1Ramp _ c | .apuwrSq1Lo _ c | .apuwrSq1Hi _ c => c
  | .apuwrSq2Ctrl _ c | .apuwrSq2Ramp _ c | .apuwrSq2Lo _ c | .apuwrSq2Hi _ c => c
  | .apuwrTriCtrl _ c | .apuwrTriLo _ c | .apuwrTriHi _ c | .apuwrEnable _ c | .apuwrIgnored _ _ c => c
  | _ => 0

/-- The side operand `n` of an instruction, 0 where it uses none (30_encoding.md R94). -/
def countOperand : Instr → BitVec 32
  | .fiford n => n
  | _ => 0

/-- The side operand `s` of an instruction, empty where it uses none (30_encoding.md R94). -/
def samplesOperand : Instr → List Sample
  | .fifowr xs => xs
  | _ => []

/-- The agent the instruction's row names (30_encoding.md R94, R96): `FIFORD` is issued by AUDIO, every other by SIM. -/
def agentOf : Instr → Agent
  | .fiford _ => .audio
  | _ => .sim

/-- The request that issues an instruction from the agent its row names. -/
def encode (i : Instr) : Request :=
  { w := encodeWord i, c := cycleOperand i, n := countOperand i, samples := samplesOperand i, agent := agentOf i }

/-- The command row of an instruction: an APUREG row is an `APUWR` at its address (30_encoding.md R97). -/
def Instr.command : Instr → Instr
  | .apuwrSq1Ctrl v8 c => .apuwr 0x4000 v8 c
  | .apuwrSq1Ramp v8 c => .apuwr 0x4001 v8 c
  | .apuwrSq1Lo v8 c => .apuwr 0x4002 v8 c
  | .apuwrSq1Hi v8 c => .apuwr 0x4003 v8 c
  | .apuwrSq2Ctrl v8 c => .apuwr 0x4004 v8 c
  | .apuwrSq2Ramp v8 c => .apuwr 0x4005 v8 c
  | .apuwrSq2Lo v8 c => .apuwr 0x4006 v8 c
  | .apuwrSq2Hi v8 c => .apuwr 0x4007 v8 c
  | .apuwrTriCtrl v8 c => .apuwr 0x4008 v8 c
  | .apuwrTriLo v8 c => .apuwr 0x400A v8 c
  | .apuwrTriHi v8 c => .apuwr 0x400B v8 c
  | .apuwrEnable v8 c => .apuwr 0x4015 v8 c
  | .apuwrIgnored addr v8 c => .apuwr addr v8 c
  | i => i

/-- The row of the opcode table an instruction is: an `APUWR` is one of the APUREG rows (30_encoding.md R97), every other
command row is itself. -/
def Instr.row : Instr → Instr
  | .apuwr addr v8 c => apuRow addr v8 c
  | i => i

/-! ### The opcode table (spec/opcode_table.json) -/

/-- The command rows of spec/opcode_table.json: mnemonic, `match`, `mask`. The mask covers `op` and every reserved bit
(30_encoding.md R94). -/
def cmdTable : List (String × CmdWord × CmdWord) :=
  [("RD8", 0x0100000000, 0xFF0000FFFF), ("WR8", 0x0200000000, 0xFF0000FF00),
   ("RD16", 0x0300000000, 0xFF0000FFFF), ("WR16", 0x0400000000, 0xFF00000000),
   ("FETCH", 0x0500000000, 0xFFFFFFFFFF), ("PUSH8", 0x0600000000, 0xFFFFFFFF00),
   ("POP8", 0x0700000000, 0xFFFFFFFFFF), ("PUSH16", 0x0800000000, 0xFFFFFF0000),
   ("POP16", 0x0900000000, 0xFFFFFFFFFF), ("RESET", 0x0A00000000, 0xFFFFFFFFFF)] ++
  [("GETA", 0x1000000000, 0xFFFFFFFFFF), ("SETA", 0x1100000000, 0xFFFFFFFF00),
   ("GETX", 0x1200000000, 0xFFFFFFFFFF), ("SETX", 0x1300000000, 0xFFFFFFFF00),
   ("GETY", 0x1400000000, 0xFFFFFFFFFF), ("SETY", 0x1500000000, 0xFFFFFFFF00),
   ("GETSP", 0x1600000000, 0xFFFFFFFFFF), ("SETSP", 0x1700000000, 0xFFFFFFFF00),
   ("GETPC", 0x1800000000, 0xFFFFFFFFFF), ("SETPC", 0x1900000000, 0xFFFFFF0000),
   ("GETP", 0x1A00000000, 0xFFFFFFFFFF), ("SETP", 0x1B00000000, 0xFFFFFFFF00),
   ("GETF", 0x1C00000000, 0xFFFFF8FFFF), ("SETF", 0x1D00000000, 0xFFFFF8FFFE),
   ("GETCYC", 0x1E00000000, 0xFFFFFFFFFF)] ++
  [("APUINIT", 0x2000000000, 0xFFFFFFFEE0), ("APUWR", 0x2100000000, 0xFF0000FF00),
   ("TOGGLE", 0x2200000000, 0xFFFFFFFFF8), ("RUN", 0x2300000000, 0xFFFFFFFFFF),
   ("FIFONEW", 0x3000000000, 0xFFFFFFFFFF), ("FIFOWR", 0x3100000000, 0xFFFFFFFFFF),
   ("FIFORD", 0x3200000000, 0xFFFFFFFFFF), ("FIFOCLR", 0x3300000000, 0xFFFFFFFFFF)]

/-! ### The words of the opcode table's rows -/

/-- The request whose bits are those of an opcode-table row. A command row gives the 40-bit word; an APUREG row has at
most 16 bits and gives the address operand of an `APUWR` (30_encoding.md R97), its other operands 0 (log entry 9). The
issuing agent is the one the word's row names. -/
def tableRequest (nbits w : Nat) : Request :=
  let word : CmdWord := if nbits ≤ 16 then cmdWord 0x21 (BitVec.ofNat 16 w) 0 else BitVec.ofNat 40 w
  { w := word, c := 0, n := 0, samples := [], agent := if opField word = 0x32 then .audio else .sim }

/-- The instruction the decoder reads from an opcode-table row's bits: a command row by `decode`, an APUREG row (at most
16 bits) by the second level of the decode as well. -/
def decodeTableWord (nbits w : Nat) : Option Instr :=
  match decode (tableRequest nbits w) with
  | .ok i => some (if nbits ≤ 16 then i.row else i)
  | .error _ => none

end Sys2Proof
end

