-- ==== Sys2Proof/Machine/State.lean ====
section
/-!
DEFINITION. The state of the block (10_state.md R20 to R42), the outputs of a step (30_encoding.md R92), the model faults
(60_exceptions.md R304), and the state right after power-on (10_state.md R42).
-/
namespace Sys2Proof.Machine

/-! ### The pieces of state -/

/-- The six status flags (10_state.md R27). -/
structure Flags where
  c : Bool
  z : Bool
  i : Bool
  d : Bool
  v : Bool
  n : Bool
  deriving DecidableEq, Repr

/-- A pulse oscillator's parameters: an 11-bit period and a 2-bit duty index (10_state.md R31). -/
structure PulseOsc where
  period : Period
  duty : BitVec 2
  deriving DecidableEq, Repr

/-- The RAM as its listed bytes, by index 0..2047 (10_state.md R29): addresses strictly rising, no entry equal to what an
unlisted index reads as (`Memory.unlisted`, log entry 2). -/
abbrev Memory := List Host.Cell

/-- The kinds of model fault (60_exceptions.md R304). -/
inductive FaultKind where
  /-- Code 1: unassigned opcode, reserved bit set, `f` in {4, 5}, `ch` in {5, 6, 7} (30_encoding.md R95). -/
  | illegal
  /-- Code 2: issued by an agent its row does not name (30_encoding.md R96). -/
  | agent
  /-- Code 3: a bus byte access with `S.CYCLES = 2^64 - 1` (10_state.md R30). -/
  | cycleOverflow
  /-- Code 4: a flush target below the watermark (42_apu_orchestrator.md R216). -/
  | rewind
  /-- Code 5: attaching, writing, draining or clearing a FIFO that does not exist (R190, R271 to R273). -/
  | noFifo
  /-- Code 6: creating a second FIFO (44_sample_buffer_fifo.md R270). -/
  | fifoExists
  /-- Code 7: a sample rate of 0 or of 2^32 or more (44_sample_buffer_fifo.md R270). -/
  | badRate
  deriving DecidableEq, Repr

/-- What `S.FAULT` records: the kind, and the faulting request's agent, command word and side operands
(60_exceptions.md R304). -/
structure FaultRecord where
  kind : FaultKind
  request : Request
  deriving DecidableEq, Repr

/-- The events of a step (60_exceptions.md R300); they change no state (R301). -/
inductive Event where
  /-- `EV_OOB_READ(addr)`. -/
  | oobRead (addr : Addr)
  /-- `EV_OOB_WRITE(addr, v)`. -/
  | oobWrite (addr : Addr) (v : Byte)
  /-- `EV_UNDERRUN(n, k)`: `n` samples requested, `k` supplied. -/
  | underrun (n k : Nat)
  /-- `EV_OVERFLOW(drop)`. -/
  | overflow (drop : Nat)
  deriving DecidableEq, Repr

/-- A response: the 64-bit result, the samples of a drain, and the events in order (30_encoding.md R92). -/
structure Response where
  r : BitVec 64
  out : List Sample
  ev : List Event
  deriving DecidableEq, Repr

/-- Which conversion from an exact mixed value to binary32 the machine has: the parameter `toF32` (00_scope.md R8,
42_apu_orchestrator.md R225, log entry 8). -/
inductive Conversion where
  /-- The spec's default: round to nearest, ties to even. -/
  | nearestEven
  /-- An implementation's own, of which nothing is known (`Config.implToF32`). -/
  | implementation
  deriving DecidableEq, Repr

/-- The block state (10_state.md R20), followed by the two parameters a machine fixes (log entries 7, 8) and the model's own
three fields (log entries 5, 6). -/
structure State where
  /-- `S.A` (R21). -/
  a : Byte
  /-- `S.X` (R22). -/
  x : Byte
  /-- `S.Y` (R23). -/
  y : Byte
  /-- `S.SP` (R24). -/
  sp : Byte
  /-- `S.PC` (R26). -/
  pc : Addr
  /-- `S.P` (R27). -/
  p : Flags
  /-- `S.RAM` (R29). -/
  ram : Memory
  /-- `S.CYCLES` (R30). -/
  cycles : Cycle
  /-- `S.SQ[0]`, SQUARE1 (R31). -/
  sq1 : PulseOsc
  /-- `S.SQ[1]`, SQUARE2 (R31). -/
  sq2 : PulseOsc
  /-- `S.TRI.PERIOD` (R32). -/
  tri : Period
  /-- `S.GUEST` (R33). -/
  guest : Mask
  /-- `S.HOST` (R33). -/
  host : Mask
  /-- `S.WM` (R35). -/
  wm : Cycle
  /-- `S.ATT` (R36). -/
  att : Bool
  /-- `S.FEXISTS` (R38). -/
  fexists : Bool
  /-- `S.RATE` (R38). -/
  rate : BitVec 32
  /-- `S.Q`, oldest sample first (R38). -/
  q : List Sample
  /-- `S.FAULT` (R40). -/
  fault : Option FaultRecord
  /-- The parameter FIFO_DEPTH, `none` for unbounded (00_scope.md R8, 44_sample_buffer_fifo.md R274); no step changes it
  (log entry 7). -/
  fifoDepth : Option Nat
  /-- The parameter `toF32` (00_scope.md R8, 42_apu_orchestrator.md R225); no step changes it (log entry 8). -/
  conversion : Conversion
  /-- The requests not yet issued, in the order the two agents issue them (log entry 5). -/
  requests : List Request
  /-- The request being executed (log entry 6). -/
  cur : Request
  /-- The response of the last request, none after a fault (log entry 6). -/
  resp : Option Response
  deriving DecidableEq, Repr

/-! ### The outcomes other than a next state -/

/-- Why a step stops. -/
inductive Fault where
  /-- Raised by `step` alone: `S.FAULT` is set, so no agent has a step (60_exceptions.md R305). Safe: the spec gives a
  faulted state no further step. -/
  | quiescent (kind : FaultKind)
  deriving DecidableEq, Repr

/-- Why an instruction has no meaning. -/
inductive Refusal where
  /-- Raised by `exec` for an instruction that is not modelled yet; no arm does. Safe: the model stops. -/
  | notModelled (mnemonic : String)
  deriving DecidableEq, Repr

/-! ### Power-on -/

/-- What a power-on draws or is given (10_state.md R42, 00_scope.md R8): REG_POWER_ON, RAM_POWER_ON, the value of
`S.RATE` while no FIFO exists, and the parameters FIFO_DEPTH and `toF32`. -/
structure PowerOn where
  a : Byte
  x : Byte
  y : Byte
  pc : Addr
  p : Flags
  ram : Memory
  rate : BitVec 32
  fifoDepth : Option Nat
  conversion : Conversion
  deriving DecidableEq, Repr

/-- The request latch before any request (log entry 6). -/
def Request.idle : Request := { w := 0, c := 0, n := 0, samples := [], agent := .sim }

/-- The state at power-on for the given draws (10_state.md R42, 70_reset_and_hazards.md R330). -/
def State.powerOn (d : PowerOn) : State :=
  { a := d.a, x := d.x, y := d.y, sp := Config.spPowerOn, pc := d.pc, p := d.p, ram := d.ram, cycles := 0,
    sq1 := { period := 0, duty := 0 }, sq2 := { period := 0, duty := 0 }, tri := 0,
    guest := 0b00000, host := 0b11111, wm := 0, att := false, fexists := false, rate := d.rate, q := [],
    fault := none, fifoDepth := d.fifoDepth, conversion := d.conversion, requests := [], cur := Request.idle, resp := none }

/-- The draws of `State.reset`: zeros, an unbounded FIFO, and the default `toF32`. DESIGN CHOICE, unsafe (log entries 1, 2,
3, 7, 8): the spec leaves each open, and a claim about software that reads uninitialised state, or about the one machine
these parameters name, could rest on them. -/
def PowerOn.chosen : PowerOn :=
  { a := 0, x := 0, y := 0, pc := 0, p := { c := false, z := false, i := false, d := false, v := false, n := false },
    ram := [], rate := 0, fifoDepth := none, conversion := .nearestEven }

/-- The machine right after power-on (10_state.md R42), with the chosen draws and no request issued. -/
def State.reset : State := State.powerOn PowerOn.chosen

end Sys2Proof.Machine
end

