-- ==== Sys2Proof/Machine/Ops.lean ====
section
/-!
DEFINITION. The shared operations: RAM, the cycle counter, bus accesses, the stack bodies, raising a model fault, and
completing a request.
-/
namespace Sys2Proof.Machine

/-! ### RAM (10_state.md R29) -/

/-- What a RAM byte that nothing has written reads as. DESIGN CHOICE, unsafe (log entry 2). -/
def Memory.unlisted : Byte := 0

/-- The byte at RAM index `i`. -/
def Memory.read : Memory → Nat → Byte
  | [], _ => Memory.unlisted
  | (k, b) :: rest, i => if k = i then b else Memory.read rest i

/-- RAM with index `i` holding `v`, in canonical form. -/
def Memory.write : Memory → Nat → Byte → Memory
  | [], i, v => if v = Memory.unlisted then [] else [(i, v)]
  | (k, b) :: rest, i, v =>
    if i < k then (if v = Memory.unlisted then (k, b) :: rest else (i, v) :: (k, b) :: rest)
    else if i = k then (if v = Memory.unlisted then rest else (i, v) :: rest)
    else (k, b) :: Memory.write rest i v

/-- Strictly rising indices from `lo` on, inside the RAM, no entry equal to what an unlisted index reads as. -/
def Memory.wfFrom : Nat → Memory → Bool
  | _, [] => true
  | lo, (k, b) :: rest => decide (lo ≤ k) && decide (k < Config.ramSize) && b != Memory.unlisted && Memory.wfFrom (k + 1) rest

/-- The canonical form of RAM. -/
def Memory.wf (m : Memory) : Bool := Memory.wfFrom 0 m

/-! ### Model faults (60_exceptions.md R304, R305) -/

/-- The code of a fault (60_exceptions.md R304). -/
def FaultKind.code : FaultKind → Nat
  | .illegal => 1
  | .agent => 2
  | .cycleOverflow => 3
  | .rewind => 4
  | .noFifo => 5
  | .fifoExists => 6
  | .badRate => 7

/-- Raise a model fault: no write of the request takes effect, there is no response, and `S.FAULT` records the request if
it was none (60_exceptions.md R305). Called on the state the request started from. The fault is a next state (DEDUCED, safe,
log entry 4). -/
def State.raise (s : State) (k : FaultKind) : State :=
  { s with fault := s.fault.or (some { kind := k, request := s.cur }), resp := none }

/-! ### Completing a request -/

/-- A response with no result (30_encoding.md R92: `r` is 0 when the request returns nothing). -/
def Response.empty : Response := { r := 0, out := [], ev := [] }

/-- A response with the given events and no result. -/
def Response.events (ev : List Event) : Response := { r := 0, out := [], ev := ev }

/-- A response with a zero-extended result and the events met on the way (30_encoding.md R92). -/
def Response.value {n : Nat} (v : BitVec n) (ev : List Event) : Response := { r := v.setWidth 64, out := [], ev := ev }

/-- The state with the response of the request that has just completed. -/
def State.respond (s : State) (r : Response) : State := { s with resp := some r }

/-- Execute a request's body for the agent its row names: AGENT first (30_encoding.md R96, 60_exceptions.md R306), then
the body; a fault of the body voids all its writes (60_exceptions.md R305). -/
def perform (who : Agent) (s : State) (body : Except FaultKind (Response × State)) :
    Host.Outcome State Fault Refusal :=
  if s.cur.agent = who then
    match body with
    | .ok (r, s') => .next (s'.respond r)
    | .error k => .next (s.raise k)
  else .next (s.raise .agent)

/-! ### The bus (20_memory.md R61, R62; 10_state.md R30) -/

/-- A bus address inside the RAM window (20_memory.md R61). -/
def inWindow (addr : Addr) : Bool := decide (addr < Config.windowEnd)

/-- The RAM index a window address selects, `addr[10:0]` (20_memory.md R61). -/
def ramIndex (addr : Addr) : Nat := addr.toNat % Config.ramSize

/-- `Tick` (10_state.md R30). -/
def tick (s : State) : Except FaultKind State :=
  if s.cycles = Config.cycleMax then .error .cycleOverflow else .ok { s with cycles := s.cycles + 1 }

/-- `MemRead(addr, 1)` (41_bus_and_regfile.md R140): the byte, the events, the state after. -/
def memRead (addr : Addr) (s : State) : Except FaultKind (Byte × List Event × State) := do
  let s1 ← tick s
  if inWindow addr then .ok (s1.ram.read (ramIndex addr), [], s1) else .ok (0, [.oobRead addr], s1)

/-- `MemWrite(addr, 1, v8)` (41_bus_and_regfile.md R141): the events, the state after. -/
def memWrite (addr : Addr) (v : Byte) (s : State) : Except FaultKind (List Event × State) := do
  let s1 ← tick s
  if inWindow addr then .ok ([], { s1 with ram := s1.ram.write (ramIndex addr) v }) else .ok ([.oobWrite addr v], s1)

/-- `MemRead(addr, 2)` (41_bus_and_regfile.md R142): low byte first, the high byte's address wraps. -/
def memRead16 (addr : Addr) (s : State) : Except FaultKind (Half × List Event × State) := do
  let (lo, e1, s1) ← memRead addr s
  let (hi, e2, s2) ← memRead (addr + 1) s1
  .ok (hi ++ lo, e1 ++ e2, s2)

/-- `MemWrite(addr, 2, v16)` (41_bus_and_regfile.md R143): low byte first, the high byte's address wraps. -/
def memWrite16 (addr : Addr) (v : Half) (s : State) : Except FaultKind (List Event × State) := do
  let (e1, s1) ← memWrite addr (v.extractLsb' 0 8) s
  let (e2, s2) ← memWrite (addr + 1) (v.extractLsb' 8 8) s1
  .ok (e1 ++ e2, s2)

/-! ### The stack (41_bus_and_regfile.md R145 to R148) -/

/-- The bus address `0x0100 + SP` (10_state.md R24). -/
def stackAddr (sp : Byte) : Addr := Config.stackBase + sp.setWidth 16

/-- The body of `PUSH8` (R145): write at the current pointer, then decrement. -/
def pushByte (v : Byte) (s : State) : Except FaultKind (List Event × State) := do
  let (ev, s1) ← memWrite (stackAddr s.sp) v s
  .ok (ev, { s1 with sp := s1.sp - 1 })

/-- The body of `POP8` (R146): increment, then read at the new pointer. -/
def popByte (s : State) : Except FaultKind (Byte × List Event × State) :=
  memRead (stackAddr (s.sp + 1)) { s with sp := s.sp + 1 }

/-! ### Issuing requests (00_scope.md R9, R10; log entry 5) -/

/-- The next request to issue and the state while it executes; none where no request is waiting. -/
def nextRequest (s : State) : Option (Request × State) :=
  match s.requests with
  | [] => none
  | r :: rest => some (r, { s with requests := rest, cur := r })

end Sys2Proof.Machine
end

