-- ==== Sys2Proof/Machine/Flags.lean ====
section
/-!
DEFINITION. The status flag codec (40_status_flag_codec.md R120 to R125): two pure functions. No request of the block
computes a flag as a side effect (10_state.md R27), so there is no other flag computation.
-/
namespace Sys2Proof.Machine

/-- `to_byte(P) = {P.N, P.V, 1, 0, P.D, P.I, P.Z, P.C}` (R120). -/
def toByte (p : Flags) : Byte :=
  BitVec.ofBool p.n ++ BitVec.ofBool p.v ++ 1#1 ++ 0#1 ++ BitVec.ofBool p.d ++ BitVec.ofBool p.i ++
    BitVec.ofBool p.z ++ BitVec.ofBool p.c

/-- `from_byte(b)`: bits 4 and 5 are ignored (R121). -/
def fromByte (b : Byte) : Flags :=
  { c := b.getLsbD 0, z := b.getLsbD 1, i := b.getLsbD 2, d := b.getLsbD 3, v := b.getLsbD 6, n := b.getLsbD 7 }

/-- `to_byte(P)[f]` (41_bus_and_regfile.md R160). -/
def flagBit (p : Flags) (f : BitVec 3) : Bool := (toByte p).getLsbD f.toNat

/-- `from_byte((to_byte(P) & ~(1 << f)) | (b << f))` (41_bus_and_regfile.md R161). -/
def setFlagBit (p : Flags) (f : BitVec 3) (b : Bool) : Flags :=
  fromByte ((toByte p &&& ~~~(1#8 <<< f.toNat)) ||| ((BitVec.ofBool b).setWidth 8 <<< f.toNat))

/-- The flag selectors that name no flag: bits 4 and 5 of the status byte (30_encoding.md R95 item 3). -/
def noFlag (f : BitVec 3) : Bool := f == 4 || f == 5

end Sys2Proof.Machine
end

