-- ==== Sys2Proof/Machine/Operands.lean ====
section
/-!
DEFINITION. The operand forms of the APU registers and masks (10_state.md R34, R37; 42_apu_orchestrator.md R200 to R214).
The command word's own operand fields are read in Decode.lean (30_encoding.md R93): nothing is scaled or sign-extended.
-/
namespace Sys2Proof.Machine

/-- `v8[7:6]`, a duty index (42_apu_orchestrator.md R200, R204). -/
def dutyField (v8 : Byte) : BitVec 2 := v8.extractLsb' 6 2

/-- `{PERIOD[10:8], v8[7:0]}`: a low-byte write keeps the high 3 bits (R202, R206, R209). -/
def periodLow (p : Period) (v8 : Byte) : Period := p.extractLsb' 8 3 ++ v8

/-- `{v8[2:0], PERIOD[7:0]}`: a high write keeps the low byte (R203, R207, R210). -/
def periodHigh (p : Period) (v8 : Byte) : Period := v8.extractLsb' 0 3 ++ p.extractLsb' 0 8

/-- `v8[4:0]`, a guest mask (R211). -/
def maskField (v8 : Byte) : Mask := v8.extractLsb' 0 5

/-- `mask ^ (1 << ch)` (R213). -/
def toggleBit (m : Mask) (ch : BitVec 3) : Mask := m ^^^ (1#5 <<< ch.toNat)

/-- The channel ids that name no channel (30_encoding.md R95 item 4). -/
def noChannel (ch : BitVec 3) : Bool := decide (5 ≤ ch.toNat)

/-- Channel `k` is enabled for a flush: bit `k` of `S.HOST & S.GUEST` (R214). -/
def channelEnabled (s : State) (k : Nat) : Bool := (s.host &&& s.guest).getLsbD k

end Sys2Proof.Machine
end

