-- ==== Sys2Proof/Machine/Oscillators.lean ====
section
/-!
DEFINITION. The pulse and triangle oscillators (43_oscillators.md R240 to R250): pure functions of absolute time, in exact
rationals (42_apu_orchestrator.md R225). Times are in seconds.
-/
namespace Sys2Proof.Machine

/-- `frac(q) = q - floor(q)` (00_scope.md R13). -/
def frac (q : Rat) : Rat := q - (q.floor : Rat)

/-- The start of a flush's window, `S.WM / CPU_FREQ` seconds (42_apu_orchestrator.md R219). -/
def windowStart (wm : Cycle) : Rat := (wm.toNat : Rat) / (Config.cpuFreq : Rat)

/-- The absolute time of sample `i`, `t0 + i / rate` (42_apu_orchestrator.md R219, 43_oscillators.md R240). -/
def sampleTime (t0 : Rat) (rate : Nat) (i : Nat) : Rat := t0 + (i : Rat) / (rate : Rat)

/-- `Duty(idx)` (43_oscillators.md R244). -/
def dutyFraction (idx : BitVec 2) : Rat :=
  match idx with
  | 0#2 => 1 / 8
  | 1#2 => 1 / 4
  | 2#2 => 1 / 2
  | _ => 3 / 4

/-- `T_pulse = 16 * (PERIOD + 1) / CPU_FREQ` seconds (43_oscillators.md R242). -/
def pulsePeriod (p : Period) : Rat := 16 * ((p.toNat : Rat) + 1) / (Config.cpuFreq : Rat)

/-- The output of an unmuted pulse oscillator at time `t` (43_oscillators.md R243), at unit volume (R245). -/
def pulseAt (o : PulseOsc) (t : Rat) : Rat :=
  if frac (t / pulsePeriod o.period) ≤ dutyFraction o.duty then 1 else -1

/-- `Pulse(osc, t0, rate, n)` (43_oscillators.md R240, R241, R243). -/
def pulseFill (o : PulseOsc) (t0 : Rat) (rate n : Nat) : List Rat :=
  if o.period.toNat < Config.pulseMute then List.replicate n 0
  else (List.range n).map fun i => pulseAt o (sampleTime t0 rate i)

/-- `T_tri = 32 * (PERIOD + 1) / CPU_FREQ` seconds (43_oscillators.md R247). -/
def trianglePeriod (p : Period) : Rat := 32 * ((p.toNat : Rat) + 1) / (Config.cpuFreq : Rat)

/-- The triangle's ramp over one period scaled to four quadrants (43_oscillators.md R248). -/
def triangleWave (scaled : Rat) : Rat :=
  let offset := frac scaled
  match (scaled.floor % 4).toNat with
  | 0 => offset
  | 1 => 1 - offset
  | 2 => -offset
  | _ => -1 + offset

/-- The output of an unmuted triangle oscillator at time `t` (43_oscillators.md R248). -/
def triangleAt (p : Period) (t : Rat) : Rat := triangleWave (t / trianglePeriod p * 4)

/-- `Triangle(osc, t0, rate, n)` (43_oscillators.md R240, R246, R248). -/
def triangleFill (p : Period) (t0 : Rat) (rate n : Nat) : List Rat :=
  if p.toNat < Config.triangleMute then List.replicate n 0
  else (List.range n).map fun i => triangleAt p (sampleTime t0 rate i)

/-- `Zeros(n)` (42_apu_orchestrator.md R220). -/
def zeros (n : Nat) : List Rat := List.replicate n 0

end Sys2Proof.Machine
end

