-- ==== Sys2Proof/Machine/Mixer.lean ====
section
/-!
DEFINITION. The audio mixing engine (42_apu_orchestrator.md R221, R222) and the one rounding of the audio path (R225): the
spec's `toF32`, IEEE 754 binary32 round to nearest, ties to even, and the parameter that says which conversion a machine
has (`convert`, log entry 8).
-/
namespace Sys2Proof.Machine

/-- `Mix(square1, square2, triangle, noise, dmc)` (42_apu_orchestrator.md R221). -/
def mix (square1 square2 triangle noise dmc : Rat) : Rat :=
  Config.mixPulse * (square1 + square2) +
    (Config.mixTriangle * triangle + Config.mixNoise * noise + Config.mixDmc * dmc)

/-- The mixed values of five channel buffers, index by index (42_apu_orchestrator.md R215 step 4). -/
def mixBuffers : List Rat → List Rat → List Rat → List Rat → List Rat → List Rat
  | a :: as, b :: bs, c :: cs, d :: ds, e :: es => mix a b c d e :: mixBuffers as bs cs ds es
  | _, _, _, _, _ => []

/-! ### Rounding to binary32 (42_apu_orchestrator.md R225) -/

/-- `num / den` rounded to the nearest integer, ties to even. -/
def roundHalfEven (num den : Nat) : Nat :=
  let down := num / den
  let twice := 2 * (num % den)
  if twice < den then down else if den < twice then down + 1 else down + down % 2

/-- `2 ^ e ≤ num / den`, in integers. -/
def powLe (e : Int) (num den : Nat) : Bool :=
  if 0 ≤ e then decide (den * 2 ^ e.toNat ≤ num) else decide (den ≤ num * 2 ^ (-e).toNat)

/-- The binary exponent of `num / den`: the `e` with `2 ^ e ≤ num / den < 2 ^ (e + 1)`, for positive `num` and `den`. -/
def binaryExponent (num den : Nat) : Int :=
  let e : Int := (num.log2 : Int) - (den.log2 : Int)
  if powLe e num den then e else e - 1

/-- `num / den` in units of `2 ^ (e - 23)`, rounded to the nearest integer, ties to even. -/
def significand (e : Int) (num den : Nat) : Nat :=
  if e ≤ 23 then roundHalfEven (num * 2 ^ (23 - e).toNat) den else roundHalfEven num (den * 2 ^ (e - 23).toNat)

/-- The low 31 bits of the binary32 nearest to `num / den`. The exponent is held at -126 below the normal range; a
significand rounded up to `2 ^ 24` carries into the exponent; a result past the largest finite value is infinity. -/
def magnitudeBits (num den : Nat) : Nat :=
  if num = 0 then 0
  else
    let e := max (binaryExponent num den) (-126)
    min ((e + 126).toNat * 2 ^ 23 + significand e num den) 0x7F800000

/-- The default of the parameter `toF32` (42_apu_orchestrator.md R225): 0 is +0.0. -/
def toF32 (value : Rat) : Sample :=
  BitVec.ofNat 32 ((if value < 0 then 2 ^ 31 else 0) + magnitudeBits value.num.natAbs value.den)

/-- The parameter `toF32` (42_apu_orchestrator.md R225, 92_eei_decisions.md D19) as the machine's field names it. -/
def convert : Conversion → Rat → Sample
  | .nearestEven => toF32
  | .implementation => Config.implToF32

end Sys2Proof.Machine
end

