-- ==== Sys2Proof/Machine/Fifo.lean ====
section
/-!
DEFINITION. The Sample Buffer FIFO (44_sample_buffer_fifo.md R270 to R274).
-/
namespace Sys2Proof.Machine

/-- The queue after an append, with the number of samples dropped (44_sample_buffer_fifo.md R274): nothing is dropped
when the depth is unbounded; a finite depth drops the oldest samples over it. -/
def boundQueue (depth : Option Nat) (q : List Sample) : List Sample × Nat :=
  match depth with
  | none => (q, 0)
  | some d => (q.drop (q.length - d), q.length - d)

/-- `FifoAppend(s)` (44_sample_buffer_fifo.md R271, R274): the events and the state after. -/
def fifoAppend (xs : List Sample) (s : State) : Except FaultKind (List Event × State) :=
  if s.fexists then
    let (q, dropped) := boundQueue s.fifoDepth (s.q ++ xs)
    .ok (if dropped = 0 then [] else [.overflow dropped], { s with q := q })
  else .error .noFifo

/-- `FIFONEW <rate>` (44_sample_buffer_fifo.md R270): FIFO_EXISTS is checked before BAD_RATE (60_exceptions.md R306). -/
def execFifonew (c : Cycle) (s : State) : Host.Outcome State Fault Refusal :=
  perform .sim s (
    if s.fexists then .error .fifoExists
    else if c = 0 ∨ 2 ^ 32 ≤ c.toNat then .error .badRate
    else .ok (Response.empty, { s with fexists := true, rate := c.setWidth 32, q := [] }))

/-- `FIFOWR [x0, ..., xk-1]` (44_sample_buffer_fifo.md R271). -/
def execFifowr (xs : List Sample) (s : State) : Host.Outcome State Fault Refusal :=
  perform .sim s (do
    let (ev, s1) ← fifoAppend xs s
    .ok (Response.events ev, s1))

/-- `AUDIO: FIFORD <n>` (44_sample_buffer_fifo.md R272): up to `n` samples in order, padded with +0.0. -/
def execFiford (n : BitVec 32) (s : State) : Host.Outcome State Fault Refusal :=
  perform .audio s (
    if s.fexists then
      let k := min n.toNat s.q.length
      let pad := List.replicate (n.toNat - k) (0 : Sample)
      let ev := if k < n.toNat then [Event.underrun n.toNat k] else []
      .ok ({ r := 0, out := s.q.take k ++ pad, ev := ev }, { s with q := s.q.drop k })
    else .error .noFifo)

/-- `FIFOCLR` (44_sample_buffer_fifo.md R273). -/
def execFifoclr (s : State) : Host.Outcome State Fault Refusal :=
  perform .sim s (if s.fexists then .ok (Response.empty, { s with q := [] }) else .error .noFifo)

end Sys2Proof.Machine
end

