-- ==== Sys2Proof/Machine/Apu.lean ====
section
/-!
DEFINITION. The APU orchestrator (42_apu_orchestrator.md R190 to R228): construction, register writes, channel toggles and
the flush with its cycle-to-sample conversion.
-/
namespace Sys2Proof.Machine

/-! ### The flush (R215 to R225) -/

/-- The sample count `floor(S.RATE * elapsed / CPU_FREQ)`, exact (R218). -/
def sampleCount (rate : BitVec 32) (elapsed : Nat) : Nat := rate.toNat * elapsed / Config.cpuFreq

/-- The mixed values of a flush of `n` samples from the watermark with the current parameters (R215 steps 3 and 4, R219 to
R222): a disabled channel contributes zeros, and noise and DMC are always zeros. -/
def mixedValues (s : State) (n : Nat) : List Rat :=
  let t0 := windowStart s.wm
  let rate := s.rate.toNat
  let sq1 := if channelEnabled s 0 then pulseFill s.sq1 t0 rate n else zeros n
  let sq2 := if channelEnabled s 1 then pulseFill s.sq2 t0 rate n else zeros n
  let tri := if channelEnabled s 2 then triangleFill s.tri t0 rate n else zeros n
  mixBuffers sq1 sq2 tri (zeros n) (zeros n)

/-- The samples a flush up to `end` appends under the conversion `toF32` (R215 steps 2 to 5, R225): the mixed values of the
window, each rounded once. -/
def flushSamples (toF32 : Rat → Sample) (endCycle : Cycle) (s : State) : List Sample :=
  (mixedValues s (sampleCount s.rate (endCycle.toNat - s.wm.toNat))).map toF32

/-- `Flush(end)` (R215) under the conversion `toF32`: the events and the state after. REWIND below the watermark (R216);
with no attached Sample Buffer only the watermark moves (R217); at most one append (R223); the watermark is `end` in every
case (R224). -/
def flush (toF32 : Rat → Sample) (endCycle : Cycle) (s : State) : Except FaultKind (List Event × State) :=
  if endCycle < s.wm then .error .rewind
  else if s.att then
    if 0 < sampleCount s.rate (endCycle.toNat - s.wm.toNat) then do
      let (ev, s1) ← fifoAppend (flushSamples toF32 endCycle s) s
      .ok (ev, { s1 with wm := endCycle })
    else .ok ([], { s with wm := endCycle })
  else .ok ([], { s with wm := endCycle })

/-! ### The register functions (R200 to R212) -/

/-- 0x4000 (R200). -/
def setSq1Duty (v8 : Byte) (s : State) : State := { s with sq1 := { s.sq1 with duty := dutyField v8 } }

/-- 0x4001 (R201): a no-op. -/
def writeSq1Ramp (_v8 : Byte) (s : State) : State := s

/-- 0x4002 (R202). -/
def setSq1Low (v8 : Byte) (s : State) : State := { s with sq1 := { s.sq1 with period := periodLow s.sq1.period v8 } }

/-- 0x4003 (R203). -/
def setSq1High (v8 : Byte) (s : State) : State := { s with sq1 := { s.sq1 with period := periodHigh s.sq1.period v8 } }

/-- 0x4004 (R204). -/
def setSq2Duty (v8 : Byte) (s : State) : State := { s with sq2 := { s.sq2 with duty := dutyField v8 } }

/-- 0x4005 (R205): a no-op. -/
def writeSq2Ramp (_v8 : Byte) (s : State) : State := s

/-- 0x4006 (R206). -/
def setSq2Low (v8 : Byte) (s : State) : State := { s with sq2 := { s.sq2 with period := periodLow s.sq2.period v8 } }

/-- 0x4007 (R207). -/
def setSq2High (v8 : Byte) (s : State) : State := { s with sq2 := { s.sq2 with period := periodHigh s.sq2.period v8 } }

/-- 0x4008 (R208): a no-op. -/
def writeTriCtrl (_v8 : Byte) (s : State) : State := s

/-- 0x400A (R209). -/
def setTriLow (v8 : Byte) (s : State) : State := { s with tri := periodLow s.tri v8 }

/-- 0x400B (R210). -/
def setTriHigh (v8 : Byte) (s : State) : State := { s with tri := periodHigh s.tri v8 }

/-- 0x4015 (R211). -/
def setGuest (v8 : Byte) (s : State) : State := { s with guest := maskField v8 }

/-- Every other address (R212): ignored. -/
def writeIgnored (_v8 : Byte) (s : State) : State := s

/-- `Dispatch(addr, v8)` (R192): exactly one register function. -/
def dispatchReg (reg : ApuReg) (v8 : Byte) (s : State) : State :=
  match reg with
  | .sq1Ctrl => setSq1Duty v8 s
  | .sq1Ramp => writeSq1Ramp v8 s
  | .sq1Lo => setSq1Low v8 s
  | .sq1Hi => setSq1High v8 s
  | .sq2Ctrl => setSq2Duty v8 s
  | .sq2Ramp => writeSq2Ramp v8 s
  | .sq2Lo => setSq2Low v8 s
  | .sq2Hi => setSq2High v8 s
  | .triCtrl => writeTriCtrl v8 s
  | .triLo => setTriLow v8 s
  | .triHi => setTriHigh v8 s
  | .enable => setGuest v8 s
  | .ignored => writeIgnored v8 s

/-- The body of an `APUWR` (R191): flush up to `c` with the old parameters, then the register function. -/
def writeRegister (register : State → State) (c : Cycle) (s : State) : Host.Outcome State Fault Refusal :=
  perform .sim s (do
    let (ev, s1) ← flush (convert s.conversion) c s
    .ok (Response.events ev, register s1))

/-! ### The requests -/

/-- `APUINIT host=#hostinit, att=attach, @c` (R190). -/
def execApuinit (attach : Bool) (hostinit : Mask) (c : Cycle) (s : State) : Host.Outcome State Fault Refusal :=
  perform .sim s (
    if attach && !s.fexists then .error .noFifo
    else .ok (Response.empty,
      { s with
        sq1 := { period := 0, duty := 0 }, sq2 := { period := 0, duty := 0 }, tri := 0,
        guest := 0b00000, host := hostinit, wm := c, att := attach }))

/-- `APUWR $addr, #v8, @c` (R191, R192). -/
def execApuwr (addr : Addr) (v8 : Byte) (c : Cycle) (s : State) : Host.Outcome State Fault Refusal :=
  writeRegister (dispatchReg (apuReg addr) v8) c s

/-- `TOGGLE <channel>` (R213): ILLEGAL when `ch` is 5, 6 or 7, whichever agent issues it (60_exceptions.md R306). -/
def execToggle (ch : BitVec 3) (s : State) : Host.Outcome State Fault Refusal :=
  if noChannel ch then .next (s.raise .illegal)
  else perform .sim s (.ok (Response.empty, { s with host := toggleBit s.host ch }))

/-- `RUN @c` (R215). -/
def execRun (c : Cycle) (s : State) : Host.Outcome State Fault Refusal :=
  perform .sim s (do
    let (ev, s1) ← flush (convert s.conversion) c s
    .ok (Response.events ev, s1))

/-! ### The APUREG rows: an `APUWR` at the row's address (30_encoding.md R97) -/

/-- APUWR.SQ1_CTRL, 0x4000 (R200). -/
def execApuwrSq1Ctrl (v8 : Byte) (c : Cycle) (s : State) : Host.Outcome State Fault Refusal :=
  writeRegister (setSq1Duty v8) c s

/-- APUWR.SQ1_RAMP, 0x4001 (R201). -/
def execApuwrSq1Ramp (v8 : Byte) (c : Cycle) (s : State) : Host.Outcome State Fault Refusal :=
  writeRegister (writeSq1Ramp v8) c s

/-- APUWR.SQ1_LO, 0x4002 (R202). -/
def execApuwrSq1Lo (v8 : Byte) (c : Cycle) (s : State) : Host.Outcome State Fault Refusal :=
  writeRegister (setSq1Low v8) c s

/-- APUWR.SQ1_HI, 0x4003 (R203). -/
def execApuwrSq1Hi (v8 : Byte) (c : Cycle) (s : State) : Host.Outcome State Fault Refusal :=
  writeRegister (setSq1High v8) c s

/-- APUWR.SQ2_CTRL, 0x4004 (R204). -/
def execApuwrSq2Ctrl (v8 : Byte) (c : Cycle) (s : State) : Host.Outcome State Fault Refusal :=
  writeRegister (setSq2Duty v8) c s

/-- APUWR.SQ2_RAMP, 0x4005 (R205). -/
def execApuwrSq2Ramp (v8 : Byte) (c : Cycle) (s : State) : Host.Outcome State Fault Refusal :=
  writeRegister (writeSq2Ramp v8) c s

/-- APUWR.SQ2_LO, 0x4006 (R206). -/
def execApuwrSq2Lo (v8 : Byte) (c : Cycle) (s : State) : Host.Outcome State Fault Refusal :=
  writeRegister (setSq2Low v8) c s

/-- APUWR.SQ2_HI, 0x4007 (R207). -/
def execApuwrSq2Hi (v8 : Byte) (c : Cycle) (s : State) : Host.Outcome State Fault Refusal :=
  writeRegister (setSq2High v8) c s

/-- APUWR.TRI_CTRL, 0x4008 (R208). -/
def execApuwrTriCtrl (v8 : Byte) (c : Cycle) (s : State) : Host.Outcome State Fault Refusal :=
  writeRegister (writeTriCtrl v8) c s

/-- APUWR.TRI_LO, 0x400A (R209). -/
def execApuwrTriLo (v8 : Byte) (c : Cycle) (s : State) : Host.Outcome State Fault Refusal :=
  writeRegister (setTriLow v8) c s

/-- APUWR.TRI_HI, 0x400B (R210). -/
def execApuwrTriHi (v8 : Byte) (c : Cycle) (s : State) : Host.Outcome State Fault Refusal :=
  writeRegister (setTriHigh v8) c s

/-- APUWR.ENABLE, 0x4015 (R211). -/
def execApuwrEnable (v8 : Byte) (c : Cycle) (s : State) : Host.Outcome State Fault Refusal :=
  writeRegister (setGuest v8) c s

/-- APUWR.IGNORED, every other address (R212). -/
def execApuwrIgnored (_addr : Addr) (v8 : Byte) (c : Cycle) (s : State) : Host.Outcome State Fault Refusal :=
  writeRegister (writeIgnored v8) c s

end Sys2Proof.Machine
end

