-- ==== Sys2Proof/Machine/Bus.lean ====
section
/-!
DEFINITION. Bus byte and word accesses and code fetch (41_bus_and_regfile.md R140 to R144).
-/
namespace Sys2Proof.Machine

/-- `RD8 $addr` (R140). -/
def execRd8 (addr : Addr) (s : State) : Host.Outcome State Fault Refusal :=
  perform .sim s (do
    let (v, ev, s1) ← memRead addr s
    .ok (Response.value v ev, s1))

/-- `WR8 $addr, #v8` (R141). -/
def execWr8 (addr : Addr) (v8 : Byte) (s : State) : Host.Outcome State Fault Refusal :=
  perform .sim s (do
    let (ev, s1) ← memWrite addr v8 s
    .ok (Response.events ev, s1))

/-- `RD16 $addr` (R142). -/
def execRd16 (addr : Addr) (s : State) : Host.Outcome State Fault Refusal :=
  perform .sim s (do
    let (v, ev, s1) ← memRead16 addr s
    .ok (Response.value v ev, s1))

/-- `WR16 $addr, #v16` (R143). -/
def execWr16 (addr : Addr) (v16 : Half) (s : State) : Host.Outcome State Fault Refusal :=
  perform .sim s (do
    let (ev, s1) ← memWrite16 addr v16 s
    .ok (Response.events ev, s1))

/-- `FETCH` (R144): read at the PC, then advance it, wrapping. -/
def execFetch (s : State) : Host.Outcome State Fault Refusal :=
  perform .sim s (do
    let (v, ev, s1) ← memRead s.pc s
    .ok (Response.value v ev, { s1 with pc := s1.pc + 1 }))

end Sys2Proof.Machine
end

