-- ==== Sys2Proof/Machine/Registers.lean ====
section
/-!
DEFINITION. Register, flag and cycle-counter access (41_bus_and_regfile.md R150 to R162, 40_status_flag_codec.md R123, R124).
None is a bus access, so none ticks.
-/
namespace Sys2Proof.Machine

/-- `GETA` (R150). -/
def execGeta (s : State) : Host.Outcome State Fault Refusal :=
  perform .sim s (.ok (Response.value s.a [], s))

/-- `SETA #v8` (R151). -/
def execSeta (v8 : Byte) (s : State) : Host.Outcome State Fault Refusal :=
  perform .sim s (.ok (Response.empty, { s with a := v8 }))

/-- `GETX` (R152). -/
def execGetx (s : State) : Host.Outcome State Fault Refusal :=
  perform .sim s (.ok (Response.value s.x [], s))

/-- `SETX #v8` (R153). -/
def execSetx (v8 : Byte) (s : State) : Host.Outcome State Fault Refusal :=
  perform .sim s (.ok (Response.empty, { s with x := v8 }))

/-- `GETY` (R154). -/
def execGety (s : State) : Host.Outcome State Fault Refusal :=
  perform .sim s (.ok (Response.value s.y [], s))

/-- `SETY #v8` (R155). -/
def execSety (v8 : Byte) (s : State) : Host.Outcome State Fault Refusal :=
  perform .sim s (.ok (Response.empty, { s with y := v8 }))

/-- `GETSP` (R156). -/
def execGetsp (s : State) : Host.Outcome State Fault Refusal :=
  perform .sim s (.ok (Response.value s.sp [], s))

/-- `SETSP #v8` (R157). -/
def execSetsp (v8 : Byte) (s : State) : Host.Outcome State Fault Refusal :=
  perform .sim s (.ok (Response.empty, { s with sp := v8 }))

/-- `GETPC` (R158). -/
def execGetpc (s : State) : Host.Outcome State Fault Refusal :=
  perform .sim s (.ok (Response.value s.pc [], s))

/-- `SETPC #v16` (R159): every value is a legal target. -/
def execSetpc (v16 : Half) (s : State) : Host.Outcome State Fault Refusal :=
  perform .sim s (.ok (Response.empty, { s with pc := v16 }))

/-- `GETP` (40_status_flag_codec.md R123). -/
def execGetp (s : State) : Host.Outcome State Fault Refusal :=
  perform .sim s (.ok (Response.value (toByte s.p) [], s))

/-- `SETP #v8` (40_status_flag_codec.md R124). -/
def execSetp (v8 : Byte) (s : State) : Host.Outcome State Fault Refusal :=
  perform .sim s (.ok (Response.empty, { s with p := fromByte v8 }))

/-- `GETF <flag>` (R160): ILLEGAL when `f` is 4 or 5, whichever agent issues it (60_exceptions.md R306). -/
def execGetf (f : BitVec 3) (s : State) : Host.Outcome State Fault Refusal :=
  if noFlag f then .next (s.raise .illegal)
  else perform .sim s (.ok (Response.value (BitVec.ofBool (flagBit s.p f)) [], s))

/-- `SETF <flag>, #b` (R161): ILLEGAL when `f` is 4 or 5, whichever agent issues it (60_exceptions.md R306). -/
def execSetf (f : BitVec 3) (b : Bool) (s : State) : Host.Outcome State Fault Refusal :=
  if noFlag f then .next (s.raise .illegal)
  else perform .sim s (.ok (Response.empty, { s with p := setFlagBit s.p f b }))

/-- `GETCYC` (R162). -/
def execGetcyc (s : State) : Host.Outcome State Fault Refusal :=
  perform .sim s (.ok (Response.value s.cycles [], s))

end Sys2Proof.Machine
end

