-- ==== Sys2Proof/Machine/Stack.lean ====
section
/-!
DEFINITION. The stack requests and RESET (41_bus_and_regfile.md R145 to R149).
-/
namespace Sys2Proof.Machine

/-- `PUSH8 #v8` (R145). -/
def execPush8 (v8 : Byte) (s : State) : Host.Outcome State Fault Refusal :=
  perform .sim s (do
    let (ev, s1) ← pushByte v8 s
    .ok (Response.events ev, s1))

/-- `POP8` (R146). -/
def execPop8 (s : State) : Host.Outcome State Fault Refusal :=
  perform .sim s (do
    let (v, ev, s1) ← popByte s
    .ok (Response.value v ev, s1))

/-- `PUSH16 #v16` (R147): the high byte first. -/
def execPush16 (v16 : Half) (s : State) : Host.Outcome State Fault Refusal :=
  perform .sim s (do
    let (e1, s1) ← pushByte (v16.extractLsb' 8 8) s
    let (e2, s2) ← pushByte (v16.extractLsb' 0 8) s1
    .ok (Response.events (e1 ++ e2), s2))

/-- `POP16` (R148): the low byte first. -/
def execPop16 (s : State) : Host.Outcome State Fault Refusal :=
  perform .sim s (do
    let (lo, e1, s1) ← popByte s
    let (hi, e2, s2) ← popByte s1
    .ok (Response.value (hi ++ lo) (e1 ++ e2), s2))

/-- `RESET` (R149): the stack pointer and nothing else. -/
def execReset (s : State) : Host.Outcome State Fault Refusal :=
  perform .sim s (.ok (Response.empty, { s with sp := Config.spPowerOn }))

end Sys2Proof.Machine
end

