-- ==== Sys2Proof/Machine/Dispatch.lean ====
section
/-!
DEFINITION. One arm per instruction: each is one call of its meaning.
-/
namespace Sys2Proof.Machine

open Sys2Proof

def exec (i : Instr) (s : State) : Host.Outcome State Fault Refusal :=
  match i with
  | .rd8 addr => Sys2Proof.Machine.execRd8 addr s
  | .wr8 addr v8 => Sys2Proof.Machine.execWr8 addr v8 s
  | .rd16 addr => Sys2Proof.Machine.execRd16 addr s
  | .wr16 addr v16 => Sys2Proof.Machine.execWr16 addr v16 s
  | .fetch => Sys2Proof.Machine.execFetch s
  | .push8 v8 => Sys2Proof.Machine.execPush8 v8 s
  | .pop8 => Sys2Proof.Machine.execPop8 s
  | .push16 v16 => Sys2Proof.Machine.execPush16 v16 s
  | .pop16 => Sys2Proof.Machine.execPop16 s
  | .reset => Sys2Proof.Machine.execReset s
  | .geta => Sys2Proof.Machine.execGeta s
  | .seta v8 => Sys2Proof.Machine.execSeta v8 s
  | .getx => Sys2Proof.Machine.execGetx s
  | .setx v8 => Sys2Proof.Machine.execSetx v8 s
  | .gety => Sys2Proof.Machine.execGety s
  | .sety v8 => Sys2Proof.Machine.execSety v8 s
  | .getsp => Sys2Proof.Machine.execGetsp s
  | .setsp v8 => Sys2Proof.Machine.execSetsp v8 s
  | .getpc => Sys2Proof.Machine.execGetpc s
  | .setpc v16 => Sys2Proof.Machine.execSetpc v16 s
  | .getp => Sys2Proof.Machine.execGetp s
  | .setp v8 => Sys2Proof.Machine.execSetp v8 s
  | .getf f => Sys2Proof.Machine.execGetf f s
  | .setf f b => Sys2Proof.Machine.execSetf f b s
  | .getcyc => Sys2Proof.Machine.execGetcyc s
  | .apuinit attach hostinit c => Sys2Proof.Machine.execApuinit attach hostinit c s
  | .apuwr addr v8 c => Sys2Proof.Machine.execApuwr addr v8 c s
  | .toggle ch => Sys2Proof.Machine.execToggle ch s
  | .run c => Sys2Proof.Machine.execRun c s
  | .fifonew c => Sys2Proof.Machine.execFifonew c s
  | .fifowr xs => Sys2Proof.Machine.execFifowr xs s
  | .fiford n => Sys2Proof.Machine.execFiford n s
  | .fifoclr => Sys2Proof.Machine.execFifoclr s
  | .apuwrSq1Ctrl v8 c => Sys2Proof.Machine.execApuwrSq1Ctrl v8 c s
  | .apuwrSq1Ramp v8 c => Sys2Proof.Machine.execApuwrSq1Ramp v8 c s
  | .apuwrSq1Lo v8 c => Sys2Proof.Machine.execApuwrSq1Lo v8 c s
  | .apuwrSq1Hi v8 c => Sys2Proof.Machine.execApuwrSq1Hi v8 c s
  | .apuwrSq2Ctrl v8 c => Sys2Proof.Machine.execApuwrSq2Ctrl v8 c s
  | .apuwrSq2Ramp v8 c => Sys2Proof.Machine.execApuwrSq2Ramp v8 c s
  | .apuwrSq2Lo v8 c => Sys2Proof.Machine.execApuwrSq2Lo v8 c s
  | .apuwrSq2Hi v8 c => Sys2Proof.Machine.execApuwrSq2Hi v8 c s
  | .apuwrTriCtrl v8 c => Sys2Proof.Machine.execApuwrTriCtrl v8 c s
  | .apuwrTriLo v8 c => Sys2Proof.Machine.execApuwrTriLo v8 c s
  | .apuwrTriHi v8 c => Sys2Proof.Machine.execApuwrTriHi v8 c s
  | .apuwrEnable v8 c => Sys2Proof.Machine.execApuwrEnable v8 c s
  | .apuwrIgnored addr v8 c => Sys2Proof.Machine.execApuwrIgnored addr v8 c s

end Sys2Proof.Machine
end

