-- ==== Sys2Proof/Machine/Step.lean ====
section
/-!
DEFINITION. One step: the next request is issued, decoded and executed (00_scope.md R9). A faulted state has no step
(60_exceptions.md R305), an illegal word is a model fault (30_encoding.md R95), and with no request waiting the block is
idle (DESIGN CHOICE, safe, log entry 5).
-/
namespace Sys2Proof.Machine

/-- One step of the machine. -/
def step (s : State) : Host.Outcome State Fault Refusal :=
  match s.fault with
  | some f => .fault (.quiescent f.kind)
  | none =>
    match nextRequest s with
    | none => .next s
    | some (r, s1) =>
      match decode r with
      | .error _ => .next (s1.raise .illegal)
      | .ok i => exec i s1

/-- `s` with the request of an opcode-table row issued next, by the agent the row names: a load of the program from
outside the machine (log entry 5). -/
def State.withFetchWord (s : State) (nbits w : Nat) : State :=
  { s with requests := tableRequest nbits w :: s.requests }

end Sys2Proof.Machine
end

