-- ==== Sys2Proof/Machine/Pseudo.lean ====
section
/-!
DEFINITION. The pseudo-requests of 30_encoding.md R100: the requests each expands to. `cyc`, the value GETCYC returned, is
`S.CYCLES` of the state it is issued in, since no request of the same agent stands between and AUDIO does not tick.
-/
namespace Sys2Proof.Machine

/-- `APUWRNOW $addr, #v8`. -/
def apuwrNow (addr : Addr) (v8 : Byte) (s : State) : List Request :=
  [encode .getcyc, encode (.apuwr addr v8 s.cycles)]

/-- `FRAME`. -/
def frame (s : State) : List Request := [encode .getcyc, encode (.run s.cycles)]

/-- `REBIND host=#hostinit`. -/
def rebind (hostinit : Mask) (s : State) : List Request :=
  [encode .fifoclr, encode .getcyc, encode (.apuinit true hostinit s.cycles)]

end Sys2Proof.Machine
end

