-- ==== Sys2Proof/Safety.lean ====
section
/-!
DEFINITION. What the statements call an invariant state and a safe outcome.
-/
namespace Sys2Proof.Machine

/-- The invariant of the block's state: RAM in canonical form; the FIFO's rate nonzero once it exists (10_state.md R20); no
attachment and no queued sample without a FIFO (R36, R38); a finite FIFO_DEPTH is at least 1 and bounds the queue
(44_sample_buffer_fifo.md R274). -/
structure Invariant (s : State) : Prop where
  ram : s.ram.wf = true
  rate : s.fexists = true → s.rate ≠ 0
  attached : s.att = true → s.fexists = true
  queue : s.fexists = false → s.q = []
  depth : ∀ d, s.fifoDepth = some d → 1 ≤ d ∧ s.q.length ≤ d

/-- What a bus byte read gives at an address: the RAM byte in the window, 0 outside (20_memory.md R61, R62). -/
def busByte (s : State) (addr : Addr) : Byte := if inWindow addr then s.ram.read (ramIndex addr) else 0

/-- The event of a bus byte read (60_exceptions.md R300). -/
def readEvents (addr : Addr) : List Event := if inWindow addr then [] else [.oobRead addr]

/-- The event of a bus byte write (60_exceptions.md R300). -/
def writeEvents (addr : Addr) (v : Byte) : List Event := if inWindow addr then [] else [.oobWrite addr v]

/-- The bus byte accesses of an instruction, one tick each (70_reset_and_hazards.md R342, 20_memory.md R68). -/
def ticksOf : Instr → Nat
  | .rd8 _ => 1
  | .wr8 _ _ => 1
  | .rd16 _ => 2
  | .wr16 _ _ => 2
  | .fetch => 1
  | .push8 _ => 1
  | .pop8 => 1
  | .push16 _ => 2
  | .pop16 => 2
  | .reset => 0
  | .geta => 0
  | .seta _ => 0
  | .getx => 0
  | .setx _ => 0
  | .gety => 0
  | .sety _ => 0
  | .getsp => 0
  | .setsp _ => 0
  | .getpc => 0
  | .setpc _ => 0
  | .getp => 0
  | .setp _ => 0
  | .getf _ => 0
  | .setf _ _ => 0
  | .getcyc => 0
  | .apuinit _ _ _ => 0
  | .apuwr _ _ _ => 0
  | .toggle _ => 0
  | .run _ => 0
  | .fifonew _ => 0
  | .fifowr _ => 0
  | .fiford _ => 0
  | .fifoclr => 0
  | .apuwrSq1Ctrl _ _ => 0
  | .apuwrSq1Ramp _ _ => 0
  | .apuwrSq1Lo _ _ => 0
  | .apuwrSq1Hi _ _ => 0
  | .apuwrSq2Ctrl _ _ => 0
  | .apuwrSq2Ramp _ _ => 0
  | .apuwrSq2Lo _ _ => 0
  | .apuwrSq2Hi _ _ => 0
  | .apuwrTriCtrl _ _ => 0
  | .apuwrTriLo _ _ => 0
  | .apuwrTriHi _ _ => 0
  | .apuwrEnable _ _ => 0
  | .apuwrIgnored _ _ _ => 0

/-- The real value of a finite binary32 (42_apu_orchestrator.md R225): sign, exponent field, fraction. -/
def f32Value (x : Sample) : Rat :=
  let exponent := (x.extractLsb' 23 8).toNat
  let fraction := (x.extractLsb' 0 23).toNat
  let size : Rat := if exponent = 0 then (fraction : Rat) * (2 : Rat) ^ (-149 : Int)
    else ((2 ^ 23 + fraction : Nat) : Rat) * (2 : Rat) ^ ((exponent : Int) - 150)
  if x.getLsbD 31 then -size else size

/-- A binary32 that is neither infinite nor a NaN. -/
def f32Finite (x : Sample) : Bool := x.extractLsb' 23 8 != 0xFF#8

/-- What AUDIO receives in a response with the pad zeros removed: an underrun event says how many samples were supplied
(44_sample_buffer_fifo.md R272, R278). -/
def received (r : Response) : List Sample :=
  match r.ev with
  | [.underrun _ k] => r.out.take k
  | _ => r.out

/-! ### The FIFO's ledger (44_sample_buffer_fifo.md R278): what went in and what came out -/

/-- How a sample left the queue: AUDIO received it, or a `FIFOCLR` or an overflow dropped it. -/
inductive Departure where
  | received (x : Sample)
  | dropped (x : Sample)
  deriving DecidableEq, Repr

/-- The sample that left. -/
def Departure.sample : Departure → Sample
  | .received x => x
  | .dropped x => x

/-- The instruction flushes first: `RUN`, and `APUWR` in any row (42_apu_orchestrator.md R191, R215). -/
def flushes (i : Instr) : Bool :=
  match i.command with
  | .run _ => true
  | .apuwr _ _ _ => true
  | _ => false

/-- The samples a completed instruction appends: those of a `FIFOWR`, or of the flush of an attached orchestrator. -/
def appended (i : Instr) (s : State) : List Sample :=
  samplesOperand i ++ if flushes i && s.att then flushSamples (convert s.conversion) (cycleOperand i) s else []

/-- The samples of a queue that an overflow event says were dropped: the oldest ones (44_sample_buffer_fifo.md R274). -/
def overflowed (ev : List Event) (q : List Sample) : List Departure :=
  match ev with
  | [.overflow d] => (q.take d).map .dropped
  | _ => []

/-- The instruction drains the queue into AUDIO's response (44_sample_buffer_fifo.md R272). -/
def drains : Instr → Bool
  | .fiford _ => true
  | _ => false

/-- The instruction clears the queue (44_sample_buffer_fifo.md R273). -/
def clears : Instr → Bool
  | .fifoclr => true
  | _ => false

/-- The samples that leave the queue when an instruction completes, in order: those a drain received, all of them at a
`FIFOCLR`, and those an append dropped (44_sample_buffer_fifo.md R272 to R274). -/
def departed (i : Instr) (s : State) (r : Response) : List Departure :=
  if drains i then (received r).map .received
  else if clears i then s.q.map .dropped
  else overflowed r.ev (s.q ++ appended i s)

/-- What a step from `s` to `t` appends and removes; nothing when it is idle or its request faults. -/
def stepLedger (s t : State) : List Sample × List Departure :=
  match s.requests, t.resp with
  | r :: _, some resp =>
    match decode r with
    | .ok i => (appended i s, departed i s resp)
    | .error _ => ([], [])
  | _, _ => ([], [])

/-- `k` steps with the ledger of the FIFO; none if a step does not answer a next state. -/
def runLedger : Nat → State → Option (List Sample × List Departure × State)
  | 0, s => some ([], [], s)
  | k + 1, s =>
    match step s with
    | .next t =>
      (runLedger k t).map fun (ins, outs, u) => ((stepLedger s t).1 ++ ins, (stepLedger s t).2 ++ outs, u)
    | _ => none

end Sys2Proof.Machine
end

