-- ==== Sys2Proof/Certificates/Slice0/Obligations.lean ====
section
/-!
DEFINITION. The statements for the provers. Each says what a rule of the spec says the machine does; the docstring names
the rules it states or rests on.
-/

open Sys2Proof Sys2Proof.Machine

/-- Power-on leaves every field at the value R42 gives, the drawn fields at their draws (R42, R330). -/
def Obligations.PowerOnState : Prop :=
  ∀ d : PowerOn,
    (State.powerOn d).sp = 0xFD ∧ (State.powerOn d).cycles = 0 ∧
    (State.powerOn d).sq1 = ⟨0, 0⟩ ∧ (State.powerOn d).sq2 = ⟨0, 0⟩ ∧ (State.powerOn d).tri = 0 ∧
    (State.powerOn d).guest = 0b00000 ∧ (State.powerOn d).host = 0b11111 ∧ (State.powerOn d).wm = 0 ∧
    (State.powerOn d).att = false ∧ (State.powerOn d).fexists = false ∧ (State.powerOn d).q = [] ∧
    (State.powerOn d).fault = none ∧
    (State.powerOn d).a = d.a ∧ (State.powerOn d).x = d.x ∧ (State.powerOn d).y = d.y ∧
    (State.powerOn d).pc = d.pc ∧ (State.powerOn d).p = d.p ∧ (State.powerOn d).ram = d.ram ∧
    exec (.apuinit false 0x1F 0) (State.powerOn d) =
      .next { State.powerOn d with resp := some { r := 0, out := [], ev := [] } }

/-- The model's choice (log entries 1, 2, 3, 5 to 8): the reset state takes zero draws, an unbounded FIFO, the default
toF32, no request (10_state.md R42, 92_eei_decisions.md D10). -/
def Obligations.ResetChosenDraws : Prop :=
  State.reset.a = 0 ∧ State.reset.x = 0 ∧ State.reset.y = 0 ∧ State.reset.pc = 0 ∧
  State.reset.p = ⟨false, false, false, false, false, false⟩ ∧ (∀ k, Memory.read State.reset.ram k = 0) ∧
  State.reset.rate = 0 ∧ State.reset.fifoDepth = none ∧
  State.reset.conversion = .nearestEven ∧ State.reset.requests = [] ∧ State.reset.resp = none

/-- Decoding the request of any well-formed instruction gives the instruction (an APUREG row gives its APUWR)
(30_encoding.md R91, 30_encoding.md R93, 30_encoding.md R94, 30_encoding.md R97). -/
def Obligations.DecodeOfEncode : Prop :=
  ∀ i : Instr, i.wellFormed = true → decode (encode i) = .ok i.command ∧ i.command.row = i.row

/-- Every word the decoder accepts is the word the encoder gives for the decoded instruction, and its side operand is
kept (30_encoding.md R93, 30_encoding.md R94, 30_encoding.md R95). -/
def Obligations.DecodedWordIsItsEncoding : Prop :=
  ∀ (r : Request) (i : Instr), decode r = .ok i →
    i.wellFormed = true ∧ i.command = i ∧ encodeWord i = r.w ∧
    (∀ attach h c, i = .apuinit attach h c → c = r.c) ∧ (∀ a v c, i = .apuwr a v c → c = r.c) ∧
    (∀ c, i = .run c → c = r.c) ∧ (∀ c, i = .fifonew c → c = r.c) ∧
    (∀ n, i = .fiford n → n = r.n) ∧ (∀ xs, i = .fifowr xs → xs = r.samples) ∧
    ∀ who : Agent, decode ⟨r.w, cycleOperand i, countOperand i, samplesOperand i, who⟩ = .ok i

/-- A request decodes exactly when its word matches a row of the opcode table and its flag selector or channel is legal
(30_encoding.md R94, 30_encoding.md R95, opcode_table.json). -/
def Obligations.DecoderAcceptsExactlyTheTable : Prop :=
  ∀ r : Request, (∃ i, decode r = .ok i) ↔
    (∃ row ∈ cmdTable, r.w &&& row.2.2 = row.2.1) ∧
    (r.w.extractLsb' 32 8 = 0x1C ∨ r.w.extractLsb' 32 8 = 0x1D →
      r.w.extractLsb' 16 3 ≠ 4 ∧ r.w.extractLsb' 16 3 ≠ 5) ∧
    (r.w.extractLsb' 32 8 = 0x22 → (r.w.extractLsb' 0 3).toNat < 5)

/-- Words written out in the test vectors decode to the requests they stand for (30_encoding.md R94, 95_test_vectors.md
L2). -/
def Obligations.SpecWordsDecode : Prop :=
  decode ⟨0x0200000042, 0, 0, [], .sim⟩ = .ok (.wr8 0x0000 0x42) ∧
  decode ⟨0x03FFFF0000, 0, 0, [], .sim⟩ = .ok (.rd16 0xFFFF) ∧
  decode ⟨0x0500000000, 0, 0, [], .sim⟩ = .ok .fetch ∧
  decode ⟨0x080000BEEF, 0, 0, [], .sim⟩ = .ok (.push16 0xBEEF) ∧
  decode ⟨0x1900001234, 0, 0, [], .sim⟩ = .ok (.setpc 0x1234) ∧
  decode ⟨0x200000011F, 7, 0, [], .sim⟩ = .ok (.apuinit true 0x1F 7) ∧
  decode ⟨0x2140030007, 9, 0, [], .sim⟩ = .ok (.apuwr 0x4003 0x07 9) ∧
  decode ⟨0x2200000004, 0, 0, [], .sim⟩ = .ok (.toggle 4) ∧
  decode ⟨0x3200000000, 0, 3, [], .audio⟩ = .ok (.fiford 3) ∧
  decode ⟨0x1C00040000, 0, 0, [], .sim⟩ = .error .badFlag ∧
  decode ⟨0x2200000005, 0, 0, [], .sim⟩ = .error .badChannel ∧
  decode ⟨0x0000000000, 0, 0, [], .sim⟩ = .error .unassignedOpcode

/-- A step executes the instruction the next request decodes to (00_scope.md R9, 30_encoding.md R90). -/
def Obligations.StepRunsDecodedInstruction : Prop :=
  ∀ (s : State) (r : Request) (rest : List Request) (i : Instr), s.fault = none → s.requests = r :: rest →
    decode r = .ok i → step s = exec i { s with requests := rest, cur := r }

/-- A request whose word is illegal raises ILLEGAL, whichever agent issues it (30_encoding.md R95, 60_exceptions.md
R306). -/
def Obligations.IllegalWordFaults : Prop :=
  ∀ (s : State) (r : Request) (rest : List Request) (e : IllegalReason), s.fault = none → s.requests = r :: rest →
    decode r = .error e →
    step s = .next { s with requests := rest, cur := r, resp := none, fault := some ⟨.illegal, r⟩ }

/-- The model's choice (log entry 5): with no request waiting a step changes nothing (00_scope.md R9). -/
def Obligations.IdleStep : Prop :=
  ∀ s : State, s.fault = none → s.requests = [] → step s = .next s

/-- A faulting request changes only S.FAULT, the first fault is kept, and a faulted state has no step (R305). -/
def Obligations.FaultVoidsTheRequest : Prop :=
  (∀ (i : Instr) (s : State), ∃ t, exec i s = .next t ∧
    (t.resp = none → ∃ k, t = { s with fault := s.fault.or (some ⟨k, s.cur⟩), resp := none }) ∧
    (t.resp ≠ none → t.fault = s.fault)) ∧
  (∀ (s : State) (f : FaultRecord), s.fault = some f → step s = .fault (.quiescent f.kind))

/-- A request issued by an agent its row does not name raises AGENT; only FIFORD is named for AUDIO (R96). -/
def Obligations.WrongAgentFaults : Prop :=
  ∀ (i : Instr) (s : State), i.wellFormed = true →
    ((∃ n, i = .fiford n) ∧ s.cur.agent = .sim) ∨ ((∀ n, i ≠ .fiford n) ∧ s.cur.agent = .audio) →
    exec i s = .next { s with fault := s.fault.or (some ⟨.agent, s.cur⟩), resp := none }

/-- A, X, Y, SP, PC and the status flags are changed only by the instructions the spec names as their writers
(10_state.md R21, 10_state.md R22, 10_state.md R23, 10_state.md R24, 10_state.md R26, 10_state.md R27). -/
def Obligations.RegisterAndFlagWriters : Prop :=
  ∀ (i : Instr) (s t : State), exec i s = .next t →
    ((∀ v, i ≠ .seta v) → t.a = s.a) ∧ ((∀ v, i ≠ .setx v) → t.x = s.x) ∧ ((∀ v, i ≠ .sety v) → t.y = s.y) ∧
    ((∀ v, i ≠ .setsp v) → i ≠ .reset → (∀ v, i ≠ .push8 v) → i ≠ .pop8 → (∀ v, i ≠ .push16 v) → i ≠ .pop16 →
      t.sp = s.sp) ∧
    (i ≠ .fetch → (∀ v, i ≠ .setpc v) → t.pc = s.pc) ∧
    ((∀ v, i ≠ .setp v) → (∀ f b, i ≠ .setf f b) → t.p = s.p)

/-- RAM is changed only by WR8, WR16, PUSH8 and PUSH16 (10_state.md R29, 20_memory.md R63). -/
def Obligations.RamWriters : Prop :=
  ∀ (i : Instr) (s t : State), exec i s = .next t → (∀ a v, i ≠ .wr8 a v) → (∀ a v, i ≠ .wr16 a v) →
    (∀ v, i ≠ .push8 v) → (∀ v, i ≠ .push16 v) → t.ram = s.ram

/-- An answered request advances CYCLES by its number of bus byte accesses, a faulting one by 0 (R342). -/
def Obligations.TicksPerRequest : Prop :=
  ∀ (i : Instr) (s t : State), exec i s = .next t →
    (t.resp = none → t.cycles = s.cycles) ∧
    (t.resp ≠ none →
      ((∃ a, i = .rd8 a) ∨ (∃ a v, i = .wr8 a v) ∨ i = .fetch ∨ (∃ v, i = .push8 v) ∨ i = .pop8 →
        t.cycles.toNat = s.cycles.toNat + 1) ∧
      ((∃ a, i = .rd16 a) ∨ (∃ a v, i = .wr16 a v) ∨ (∃ v, i = .push16 v) ∨ i = .pop16 →
        t.cycles.toNat = s.cycles.toNat + 2) ∧
      ((∀ a, i ≠ .rd8 a) → (∀ a v, i ≠ .wr8 a v) → i ≠ .fetch → (∀ v, i ≠ .push8 v) → i ≠ .pop8 →
        (∀ a, i ≠ .rd16 a) → (∀ a v, i ≠ .wr16 a v) → (∀ v, i ≠ .push16 v) → i ≠ .pop16 → t.cycles = s.cycles))

/-- A request whose ticks would pass 2^64 - 1 raises CYCLE_OVERFLOW and keeps the state (10_state.md R30,
41_bus_and_regfile.md R142, 60_exceptions.md R304). -/
def Obligations.CycleOverflowFaults : Prop :=
  ∀ (i : Instr) (s : State), s.cur.agent = .sim → 2 ^ 64 ≤ s.cycles.toNat + ticksOf i →
    exec i s = .next { s with fault := s.fault.or (some ⟨.cycleOverflow, s.cur⟩), resp := none }

/-- But for APUINIT: WM never decreases and moves only in a flush, GUEST changes only by 0x4015 writes, HOST only by
TOGGLE (10_state.md R33, 10_state.md R35, 42_apu_orchestrator.md R211, 42_apu_orchestrator.md R213,
42_apu_orchestrator.md R216). -/
def Obligations.WatermarkAndMaskWriters : Prop :=
  ∀ (i : Instr) (s t : State), exec i s = .next t → (∀ b h c, i ≠ .apuinit b h c) →
    s.wm ≤ t.wm ∧ ((∀ c, i.command ≠ .run c) → (∀ a v c, i.command ≠ .apuwr a v c) → t.wm = s.wm) ∧
    ((∀ v c, i.command ≠ .apuwr 0x4015 v c) → t.guest = s.guest) ∧
    ((∀ ch, i ≠ .toggle ch) → t.host = s.host)

/-- Once the FIFO exists, no step changes its sample rate or removes it; no step changes FIFO_DEPTH or toF32 (log
entries 7, 8) (44_sample_buffer_fifo.md R275, 44_sample_buffer_fifo.md R270, 10_state.md R38, 10_state.md R41). That
the parameters are fields which no step changes is the model's choice: log entries 7 and 8. -/
def Obligations.SampleRateNeverChanges : Prop :=
  ∀ s t : State, step s = .next t →
    t.fifoDepth = s.fifoDepth ∧ t.conversion = s.conversion ∧ (s.fexists = true → t.fexists = true ∧ t.rate = s.rate)

/-- A step of AUDIO changes nothing but the FIFO queue and the fault record (60_exceptions.md R313, 30_encoding.md R96,
20_memory.md R74). -/
def Obligations.AudioTouchesOnlyTheQueue : Prop :=
  ∀ (s t : State) (r : Request) (rest : List Request), s.requests = r :: rest → r.agent = .audio → step s = .next t →
    t = { s with q := t.q, fault := t.fault, resp := t.resp, requests := rest, cur := r } ∧ t.q <:+ s.q

/-- Every power-on state with canonical RAM and a FIFO_DEPTH of at least 1 meets the invariant; so does the reset state
(10_state.md R42, 10_state.md R20). -/
def Obligations.PowerOnMeetsInvariant : Prop :=
  (∀ d : PowerOn, d.ram.wf = true → (∀ n, d.fifoDepth = some n → 1 ≤ n) → Invariant (State.powerOn d)) ∧ Invariant State.reset

/-- Every step keeps the invariant of the state (10_state.md R20, 10_state.md R36, 10_state.md R38,
44_sample_buffer_fifo.md R274). -/
def Obligations.StepKeepsInvariant : Prop :=
  ∀ s t : State, Invariant s → step s = .next t → Invariant t

/-- to_byte and from_byte: the bit table, the two fixed bits, and both round trips (R120, R121, R122). -/
def Obligations.FlagCodecLaws : Prop :=
  (∀ p : Flags, (List.range 8).map (toByte p).getLsbD = [p.c, p.z, p.i, p.d, false, true, p.v, p.n]) ∧
  (∀ b : Byte, fromByte b =
    { c := b.getLsbD 0, z := b.getLsbD 1, i := b.getLsbD 2, d := b.getLsbD 3, v := b.getLsbD 6, n := b.getLsbD 7 }) ∧
  (∀ b : Byte, toByte (fromByte b) = (b &&& 0xCF) ||| 0x20) ∧ (∀ p : Flags, fromByte (toByte p) = p)

/-- GETP returns the packed flags and SETP unpacks its byte into them; nothing else changes (R123, R124). -/
def Obligations.StatusByteRequests : Prop :=
  ∀ (v : Byte) (s : State), s.cur.agent = .sim →
    exec .getp s = .next { s with resp := some { r := (toByte s.p).setWidth 64, out := [], ev := [] } } ∧
    exec (.setp v) s = .next { s with p := fromByte v, resp := some { r := 0, out := [], ev := [] } }

/-- GETF returns the selected flag; SETF writes the selected flag, keeps the other five, and changes nothing else
(41_bus_and_regfile.md R160, 41_bus_and_regfile.md R161, 60_exceptions.md R306). The clause for f 4 and 5, which no
decoded word reaches, is the model's deduction from R306: log entry 11. -/
def Obligations.FlagRequests : Prop :=
  ∀ (f : BitVec 3) (b : Bool) (s : State),
    (s.cur.agent = .sim → f ≠ 4 → f ≠ 5 →
      exec (.getf f) s = .next { s with
        resp := some { r := if (toByte s.p).getLsbD f.toNat then 1 else 0, out := [], ev := [] } } ∧
      ∃ p : Flags, exec (.setf f b) s = .next { s with p := p, resp := some { r := 0, out := [], ev := [] } } ∧
        ∀ g : BitVec 3, g ≠ 4 → g ≠ 5 →
          (toByte p).getLsbD g.toNat = if g = f then b else (toByte s.p).getLsbD g.toNat) ∧
    (f = 4 ∨ f = 5 →
      exec (.getf f) s = .next { s with fault := s.fault.or (some ⟨.illegal, s.cur⟩), resp := none } ∧
      exec (.setf f b) s = .next { s with fault := s.fault.or (some ⟨.illegal, s.cur⟩), resp := none })

/-- GETA, GETX, GETY, GETSP, GETPC and GETCYC return the register zero-extended and change nothing (R150, R152, R154,
R156, R158, R162). -/
def Obligations.RegisterGetters : Prop :=
  ∀ s : State, s.cur.agent = .sim →
    exec .geta s = .next { s with resp := some { r := s.a.setWidth 64, out := [], ev := [] } } ∧
    exec .getx s = .next { s with resp := some { r := s.x.setWidth 64, out := [], ev := [] } } ∧
    exec .gety s = .next { s with resp := some { r := s.y.setWidth 64, out := [], ev := [] } } ∧
    exec .getsp s = .next { s with resp := some { r := s.sp.setWidth 64, out := [], ev := [] } } ∧
    exec .getpc s = .next { s with resp := some { r := s.pc.setWidth 64, out := [], ev := [] } } ∧
    exec .getcyc s = .next { s with resp := some { r := s.cycles, out := [], ev := [] } }

/-- SETA, SETX, SETY, SETSP and SETPC store their operand as given and change nothing else (R151, R153, R155, R157,
R159). -/
def Obligations.RegisterSetters : Prop :=
  ∀ (v : Byte) (w : Half) (s : State), s.cur.agent = .sim →
    exec (.seta v) s = .next { s with a := v, resp := some { r := 0, out := [], ev := [] } } ∧
    exec (.setx v) s = .next { s with x := v, resp := some { r := 0, out := [], ev := [] } } ∧
    exec (.sety v) s = .next { s with y := v, resp := some { r := 0, out := [], ev := [] } } ∧
    exec (.setsp v) s = .next { s with sp := v, resp := some { r := 0, out := [], ev := [] } } ∧
    exec (.setpc w) s = .next { s with pc := w, resp := some { r := 0, out := [], ev := [] } }

/-- RESET sets SP to 0xFD and changes nothing else (R149, R331). -/
def Obligations.ResetSetsOnlyTheStackPointer : Prop :=
  ∀ s : State, s.cur.agent = .sim →
    exec .reset s = .next { s with sp := 0xFD, resp := some { r := 0, out := [], ev := [] } }

/-- RD8 returns the mirrored RAM byte below 0x2000 and 0 with an event above, and ticks once (R140). -/
def Obligations.ByteRead : Prop :=
  ∀ (addr : Addr) (s : State), s.cur.agent = .sim → s.cycles.toNat + 1 < 2 ^ 64 →
    exec (.rd8 addr) s = .next { s with
      cycles := s.cycles + 1
      resp := some (if addr.toNat < 0x2000
        then { r := (Memory.read s.ram (addr.toNat % 2048)).setWidth 64, out := [], ev := [] }
        else { r := 0, out := [], ev := [.oobRead addr] }) }

/-- WR8 stores its byte in the mirrored RAM byte below 0x2000, drops it with an event above, and ticks once (R141). -/
def Obligations.ByteWrite : Prop :=
  ∀ (addr : Addr) (v : Byte) (s : State), s.cur.agent = .sim → s.cycles.toNat + 1 < 2 ^ 64 → s.ram.wf = true →
    ∃ m : Memory,
      exec (.wr8 addr v) s = .next { s with
        cycles := s.cycles + 1
        ram := m
        resp := some { r := 0, out := [], ev := if addr.toNat < 0x2000 then [] else [.oobWrite addr v] } } ∧
      ∀ k, Memory.read m k = if addr.toNat < 0x2000 ∧ k = addr.toNat % 2048 then v else Memory.read s.ram k

/-- RD16 returns the byte at addr as the low byte and the byte at addr + 1 modulo 2^16 as the high byte (R142). -/
def Obligations.WordRead : Prop :=
  ∀ (addr : Addr) (s : State), s.cur.agent = .sim → s.cycles.toNat + 2 < 2 ^ 64 →
    exec (.rd16 addr) s = .next { s with
      cycles := s.cycles + 2
      resp := some
        { r := BitVec.ofNat 64 (
            (if addr.toNat < 0x2000 then (Memory.read s.ram (addr.toNat % 2048)).toNat else 0) +
            256 * (if (addr + 1).toNat < 0x2000 then (Memory.read s.ram ((addr + 1).toNat % 2048)).toNat else 0))
          out := []
          ev := (if addr.toNat < 0x2000 then [] else [.oobRead addr]) ++
            (if (addr + 1).toNat < 0x2000 then [] else [.oobRead (addr + 1)]) } }

/-- WR16 writes the low byte at addr and the high byte at addr + 1 modulo 2^16, each in the window or dropped (R143). -/
def Obligations.WordWrite : Prop :=
  ∀ (addr : Addr) (v : Half) (s : State), s.cur.agent = .sim → s.cycles.toNat + 2 < 2 ^ 64 → s.ram.wf = true →
    ∃ m : Memory,
      exec (.wr16 addr v) s = .next { s with
        cycles := s.cycles + 2
        ram := m
        resp := some
          { r := 0
            out := []
            ev := (if addr.toNat < 0x2000 then [] else [.oobWrite addr (v.extractLsb' 0 8)]) ++
              (if (addr + 1).toNat < 0x2000 then [] else [.oobWrite (addr + 1) (v.extractLsb' 8 8)]) } } ∧
      ∀ k, Memory.read m k =
        if (addr + 1).toNat < 0x2000 ∧ k = (addr + 1).toNat % 2048 then v.extractLsb' 8 8
        else if addr.toNat < 0x2000 ∧ k = addr.toNat % 2048 then v.extractLsb' 0 8
        else Memory.read s.ram k

/-- FETCH returns the byte at PC, ticks once and advances PC modulo 2^16 (R144). -/
def Obligations.CodeFetch : Prop :=
  ∀ s : State, s.cur.agent = .sim → s.cycles.toNat + 1 < 2 ^ 64 →
    exec .fetch s = .next { s with
      cycles := s.cycles + 1
      pc := BitVec.ofNat 16 (s.pc.toNat + 1)
      resp := some (if s.pc.toNat < 0x2000
        then { r := (Memory.read s.ram (s.pc.toNat % 2048)).setWidth 64, out := [], ev := [] }
        else { r := 0, out := [], ev := [.oobRead s.pc] }) }

/-- A byte written in the RAM window is read back at every address that mirrors it, and read and fetch agree
(20_memory.md R61, 20_memory.md R73, 20_memory.md R77, 90_conflicts.md C4). -/
def Obligations.MirroredReadAfterWrite : Prop :=
  ∀ (a b : Addr) (v : Byte) (s : State), s.cur.agent = .sim → s.cycles.toNat + 2 < 2 ^ 64 → s.ram.wf = true →
    a.toNat < 0x2000 → b.toNat < 0x2000 → a.toNat % 2048 = b.toNat % 2048 →
    ∃ t u w, exec (.wr8 a v) s = .next t ∧ exec (.rd8 b) t = .next u ∧
      u.resp = some { r := v.setWidth 64, out := [], ev := [] } ∧
      exec .fetch { t with pc := b } = .next w ∧ w.resp = some { r := v.setWidth 64, out := [], ev := [] }

/-- PUSH8 writes at 0x0100 + SP and then decrements SP; POP8 increments SP and then reads at 0x0100 + SP, modulo 256
(R145, R146). -/
def Obligations.PushAndPopByte : Prop :=
  ∀ (v : Byte) (s : State), s.cur.agent = .sim → s.cycles.toNat + 1 < 2 ^ 64 →
    (s.ram.wf = true →
      ∃ m : Memory,
        exec (.push8 v) s = .next { s with
          cycles := s.cycles + 1, sp := BitVec.ofNat 8 (s.sp.toNat + 255), ram := m
          resp := some { r := 0, out := [], ev := [] } } ∧
        ∀ k, Memory.read m k = if k = 0x100 + s.sp.toNat then v else Memory.read s.ram k) ∧
    exec .pop8 s = .next { s with
      cycles := s.cycles + 1, sp := BitVec.ofNat 8 (s.sp.toNat + 1)
      resp := some { r := (Memory.read s.ram (0x100 + (s.sp.toNat + 1) % 256)).setWidth 64, out := [], ev := [] } }

/-- PUSH16 pushes the high byte and then the low byte; POP16 pops the low byte and then the high byte (R147, R148). -/
def Obligations.PushAndPopWord : Prop :=
  ∀ (v : Half) (s : State), s.cur.agent = .sim → s.cycles.toNat + 2 < 2 ^ 64 →
    (s.ram.wf = true →
      ∃ m : Memory,
        exec (.push16 v) s = .next { s with
          cycles := s.cycles + 2, sp := BitVec.ofNat 8 (s.sp.toNat + 254), ram := m
          resp := some { r := 0, out := [], ev := [] } } ∧
        ∀ k, Memory.read m k =
          if k = 0x100 + (s.sp.toNat + 255) % 256 then v.extractLsb' 0 8
          else if k = 0x100 + s.sp.toNat then v.extractLsb' 8 8
          else Memory.read s.ram k) ∧
    exec .pop16 s = .next { s with
      cycles := s.cycles + 2, sp := BitVec.ofNat 8 (s.sp.toNat + 2)
      resp := some
        { r := BitVec.ofNat 64 ((Memory.read s.ram (0x100 + (s.sp.toNat + 1) % 256)).toNat +
            256 * (Memory.read s.ram (0x100 + (s.sp.toNat + 2) % 256)).toNat)
          out := [], ev := [] } } ∧
    (s.ram.wf = true → s.cycles.toNat + 4 < 2 ^ 64 →
      ∃ t u, exec (.push16 v) s = .next t ∧ exec .pop16 t = .next u ∧
        u.resp = some { r := v.setWidth 64, out := [], ev := [] } ∧ u.sp = s.sp)

/-- k pushes lower SP by k modulo 256 with no fault: after 256 pushes SP is back where it started (10_state.md R24,
41_bus_and_regfile.md R145, 95_test_vectors.md L1.4). -/
def Obligations.PushesWrapTheStackPointer : Prop :=
  ∀ (vs : List Byte) (s : State), s.fault = none → s.requests = vs.map (fun v => encode (.push8 v)) →
    s.cycles.toNat + vs.length < 2 ^ 64 →
    ∃ t, Sys2Proof.core.run vs.length s = .next t ∧ t.fault = none ∧
      t.sp = BitVec.ofInt 8 ((s.sp.toNat : Int) - vs.length) ∧ t.cycles.toNat = s.cycles.toNat + vs.length

/-- APUINIT constructs a muted orchestrator, or faults NO_FIFO when asked to attach a FIFO that does not exist (R190). -/
def Obligations.OrchestratorConstruction : Prop :=
  ∀ (attach : Bool) (h : Mask) (c : Cycle) (s : State), s.cur.agent = .sim →
    (attach = true ∧ s.fexists = false →
      exec (.apuinit attach h c) s = .next { s with fault := s.fault.or (some ⟨.noFifo, s.cur⟩), resp := none }) ∧
    (attach = false ∨ s.fexists = true →
      exec (.apuinit attach h c) s = .next { s with
        sq1 := ⟨0, 0⟩, sq2 := ⟨0, 0⟩, tri := 0, guest := 0, host := h, wm := c, att := attach
        resp := some { r := 0, out := [], ev := [] } })

/-- An APUWR is the register function its exact 16-bit address selects; every unlisted address is ignored (R97, R192). -/
def Obligations.ApuAddressMap : Prop :=
  (∀ (v : Byte) (c : Cycle),
    apuRow 0x4000 v c = .apuwrSq1Ctrl v c ∧ apuRow 0x4001 v c = .apuwrSq1Ramp v c ∧
    apuRow 0x4002 v c = .apuwrSq1Lo v c ∧ apuRow 0x4003 v c = .apuwrSq1Hi v c ∧
    apuRow 0x4004 v c = .apuwrSq2Ctrl v c ∧ apuRow 0x4005 v c = .apuwrSq2Ramp v c ∧
    apuRow 0x4006 v c = .apuwrSq2Lo v c ∧ apuRow 0x4007 v c = .apuwrSq2Hi v c ∧
    apuRow 0x4008 v c = .apuwrTriCtrl v c ∧ apuRow 0x400A v c = .apuwrTriLo v c ∧
    apuRow 0x400B v c = .apuwrTriHi v c ∧ apuRow 0x4015 v c = .apuwrEnable v c) ∧
  (∀ (a : Addr) (v : Byte) (c : Cycle),
    a ∉ ([0x4000, 0x4001, 0x4002, 0x4003, 0x4004, 0x4005, 0x4006, 0x4007, 0x4008, 0x400A, 0x400B, 0x4015] : List Addr) →
    apuRow a v c = .apuwrIgnored a v c) ∧
  (∀ (a : Addr) (v : Byte) (c : Cycle) (s : State),
    exec (.apuwr a v c) s = exec (apuRow a v c) s ∧
    (dispatchReg (apuReg a) v s).q = s.q ∧ (dispatchReg (apuReg a) v s).resp = s.resp ∧
    (s.cur.agent = .sim → s.wm ≤ c → (s.att = true → s.fexists = true) →
      ∃ t, exec (.apuwr a v c) s = .next t ∧ t.resp ≠ none ∧ t.wm = c))

/-- APUWR is the flush of RUN with the old parameters, followed by the register function of the address (R191). -/
def Obligations.ApuWriteFlushesFirst : Prop :=
  ∀ (a : Addr) (v : Byte) (c : Cycle) (s : State), s.cur.agent = .sim →
    (c < s.wm →
      exec (.apuwr a v c) s = .next { s with fault := s.fault.or (some ⟨.rewind, s.cur⟩), resp := none }) ∧
    (s.wm ≤ c → (s.att = true → s.fexists = true) →
      ∃ u, exec (.run c) s = .next u ∧ u.fault = s.fault ∧ u.resp ≠ none ∧ u.wm = c ∧
        u.sq1 = s.sq1 ∧ u.sq2 = s.sq2 ∧ u.tri = s.tri ∧ u.guest = s.guest ∧ u.host = s.host ∧
        exec (.apuwr a v c) s = .next (dispatchReg (apuReg a) v u))

/-- Writes to 0x4000 and 0x4004 set the duty index of SQUARE1 and SQUARE2 from v8[7:6], after the flush (R200, R204). -/
def Obligations.DutyWrites : Prop :=
  ∀ (v : Byte) (c : Cycle) (s : State), s.cur.agent = .sim → s.wm ≤ c → (s.att = true → s.fexists = true) →
    ∃ u, exec (.run c) s = .next u ∧ u.fault = s.fault ∧ u.resp ≠ none ∧ u.wm = c ∧ 
      exec (.apuwrSq1Ctrl v c) s = .next { u with sq1 := { period := s.sq1.period, duty := v.extractLsb' 6 2 } } ∧
      exec (.apuwrSq2Ctrl v c) s = .next { u with sq2 := { period := s.sq2.period, duty := v.extractLsb' 6 2 } }

/-- Period writes replace the low byte or the high 3 bits of the period and keep the rest, after the flush (R202, R203,
R206, R207, R209, R210). -/
def Obligations.PeriodWrites : Prop :=
  ∀ (v : Byte) (c : Cycle) (s : State), s.cur.agent = .sim → s.wm ≤ c → (s.att = true → s.fexists = true) →
    ∃ u, exec (.run c) s = .next u ∧ u.fault = s.fault ∧ u.resp ≠ none ∧ u.wm = c ∧ 
      let low (p : Period) : Period := BitVec.ofNat 11 (p.toNat / 256 * 256 + v.toNat)
      let high (p : Period) : Period := BitVec.ofNat 11 (v.toNat % 8 * 256 + p.toNat % 256)
      exec (.apuwrSq1Lo v c) s = .next { u with sq1 := { period := low s.sq1.period, duty := s.sq1.duty } } ∧
      exec (.apuwrSq1Hi v c) s = .next { u with sq1 := { period := high s.sq1.period, duty := s.sq1.duty } } ∧
      exec (.apuwrSq2Lo v c) s = .next { u with sq2 := { period := low s.sq2.period, duty := s.sq2.duty } } ∧
      exec (.apuwrSq2Hi v c) s = .next { u with sq2 := { period := high s.sq2.period, duty := s.sq2.duty } } ∧
      exec (.apuwrTriLo v c) s = .next { u with tri := low s.tri } ∧
      exec (.apuwrTriHi v c) s = .next { u with tri := high s.tri }

/-- A write to 0x4015 sets the guest mask from v8[4:0] and keeps the host mask, after the flush (R211). -/
def Obligations.EnableWrite : Prop :=
  ∀ (v : Byte) (c : Cycle) (s : State), s.cur.agent = .sim → s.wm ≤ c → (s.att = true → s.fexists = true) →
    ∃ u, exec (.run c) s = .next u ∧ u.fault = s.fault ∧ u.resp ≠ none ∧ u.wm = c ∧ u.host = s.host ∧
      exec (.apuwrEnable v c) s = .next { u with guest := BitVec.ofNat 5 (v.toNat % 32) }

/-- Writes to 0x4001, 0x4005, 0x4008 and every unlisted address do nothing but the flush (R201, R205, R208, R212). -/
def Obligations.IgnoredWrites : Prop :=
  ∀ (a : Addr) (v : Byte) (c : Cycle) (s : State), s.cur.agent = .sim → s.wm ≤ c → (s.att = true → s.fexists = true) →
    ∃ u, exec (.run c) s = .next u ∧ u.fault = s.fault ∧ u.resp ≠ none ∧ u.wm = c ∧ u.sq1 = s.sq1 ∧ u.sq2 = s.sq2 ∧ u.tri = s.tri ∧ u.guest = s.guest ∧
      exec (.apuwrSq1Ramp v c) s = .next u ∧ exec (.apuwrSq2Ramp v c) s = .next u ∧
      exec (.apuwrTriCtrl v c) s = .next u ∧ exec (.apuwrIgnored a v c) s = .next u

/-- A flush target below the watermark raises REWIND and has no effect, for RUN and every APUWR row (R216). -/
def Obligations.RewindFaults : Prop :=
  ∀ (i : Instr) (s : State), s.cur.agent = .sim → cycleOperand i < s.wm →
    ((∃ c, i.command = .run c) ∨ (∃ a v c, i.command = .apuwr a v c)) →
    exec i s = .next { s with fault := s.fault.or (some ⟨.rewind, s.cur⟩), resp := none }

/-- TOGGLE flips exactly one bit of the host mask, flushes nothing, and two toggles restore the mask
(42_apu_orchestrator.md R213, 60_exceptions.md R306). The clause for ch 5 to 7, which no decoded word reaches, is
the model's deduction from R306: log entry 11. -/
def Obligations.ToggleFlipsOneHostBit : Prop :=
  ∀ (ch : BitVec 3) (s : State),
    (s.cur.agent = .sim → ch.toNat < 5 →
      ∃ m : Mask,
        exec (.toggle ch) s = .next { s with host := m, resp := some { r := 0, out := [], ev := [] } } ∧
        (∀ k, k < 5 → m.getLsbD k = (if k = ch.toNat then !s.host.getLsbD k else s.host.getLsbD k)) ∧
        exec (.toggle ch) { s with host := m } = .next { s with resp := some { r := 0, out := [], ev := [] } }) ∧
    (5 ≤ ch.toNat →
      exec (.toggle ch) s = .next { s with fault := s.fault.or (some ⟨.illegal, s.cur⟩), resp := none })

/-- With no attached Sample Buffer, RUN makes no samples and sets the watermark to its target (R217). -/
def Obligations.UnattachedRunMovesTheWatermark : Prop :=
  ∀ (c : Cycle) (s : State), s.cur.agent = .sim → s.wm ≤ c → s.att = false →
    exec (.run c) s = .next { s with wm := c, resp := some { r := 0, out := [], ev := [] } }

/-- Mix is 0.00752 (square1 + square2) + 0.00851 triangle + 0.00494 noise + 0.00335 dmc, exactly (R221). -/
def Obligations.MixFormula : Prop :=
  (∀ sq1 sq2 tri noise dmc : Rat, mix sq1 sq2 tri noise dmc =
    752 / 100000 * (sq1 + sq2) + (851 / 100000 * tri + 494 / 100000 * noise + 335 / 100000 * dmc)) ∧
  mix 1 0 0 0 0 = 752 / 100000 ∧ mix 1 1 1 0 0 = 2355 / 100000 ∧ mix 1 (-1) 0 0 0 = 0

/-- An attached RUN appends floor(RATE * elapsed / CPU_FREQ) samples, each the rounded mix of the enabled channels
(R214, R218, R220, R222, R223, R241, R243, R244, R246, R248). -/
def Obligations.RunAppendsMixedSamples : Prop :=
  ∀ (c : Cycle) (s : State), s.cur.agent = .sim → s.wm ≤ c → s.att = true → s.fexists = true → s.fifoDepth = none →
    ∃ xs : List Sample,
      exec (.run c) s =
        .next { s with q := s.q ++ xs, wm := c, resp := some { r := 0, out := [], ev := [] } } ∧
      xs.length = s.rate.toNat * (c.toNat - s.wm.toNat) / 1789773 ∧
      ∀ i, i < xs.length →
        let rate : Rat := (s.rate.toNat : Rat)
        let at' : Rat := (s.wm.toNat : Rat) * rate + (i : Rat) * 1789773
        let enabled (k : Nat) : Bool := s.host.getLsbD k && s.guest.getLsbD k
        let pulse (o : PulseOsc) : Rat :=
          if o.period.toNat < 8 then 0
          else
            let x : Rat := at' / (rate * 16 * ((o.period.toNat : Rat) + 1))
            if x - (x.floor : Rat) ≤ ([1 / 8, 1 / 4, 1 / 2, 3 / 4] : List Rat).getD o.duty.toNat 0 then 1 else -1
        let scaled : Rat := 4 * at' / (rate * 32 * ((s.tri.toNat : Rat) + 1))
        let offset : Rat := scaled - (scaled.floor : Rat)
        let triangle : Rat :=
          if s.tri.toNat < 2 then 0
          else ([offset, 1 - offset, -offset, -1 + offset] : List Rat).getD (scaled.floor % 4).toNat 0
        let value : Rat :=
          752 / 100000 * ((if enabled 0 then pulse s.sq1 else 0) + (if enabled 1 then pulse s.sq2 else 0)) +
          851 / 100000 * (if enabled 2 then triangle else 0)
        xs[i]? = some (convert s.conversion value) ∧ (s.conversion = .nearestEven → xs[i]? = some (toF32 value))

/-- With a finite FIFO_DEPTH, RUN keeps the newest samples of what an unbounded FIFO would hold, and logs the drop
(42_apu_orchestrator.md R223, 44_sample_buffer_fifo.md R274). -/
def Obligations.RunIntoABoundedFifo : Prop :=
  ∀ (c : Cycle) (d : Nat) (s : State), Invariant s → s.cur.agent = .sim → s.wm ≤ c → s.att = true →
    s.fifoDepth = some d →
    ∃ u q, exec (.run c) { s with fifoDepth := none } = .next u ∧
      exec (.run c) s = .next { s with
        wm := c
        q := q
        resp := some { r := 0, out := [], ev := if u.q.length ≤ d then [] else [.overflow (u.q.length - d)] } } ∧
      q <:+ u.q ∧ q.length = min d u.q.length

/-- RUN twice with the same target makes samples only once (R228). -/
def Obligations.FlushIsIdempotent : Prop :=
  ∀ (c : Cycle) (s : State), s.cur.agent = .sim → s.wm ≤ c → (s.att = true → s.fexists = true) →
    ∃ t, exec (.run c) s = .next t ∧ t.resp ≠ none ∧ t.wm = c ∧
      exec (.run c) t = .next { t with resp := some { r := 0, out := [], ev := [] } }

/-- Two flushes make the floors of their parts, never more than one flush and at most one fewer; at 44100, two of 40
cycles lose one (42_apu_orchestrator.md R227, 70_reset_and_hazards.md R339). -/
def Obligations.CuttingAFlushLosesSamples : Prop :=
  ∀ (b c : Cycle) (s : State), s.cur.agent = .sim → s.wm ≤ b → b ≤ c → s.att = true → s.fexists = true →
    s.fifoDepth = none →
    ∃ t u w, exec (.run b) s = .next t ∧ exec (.run c) t = .next u ∧ exec (.run c) s = .next w ∧
      u.q.length = s.q.length + s.rate.toNat * (b.toNat - s.wm.toNat) / 1789773 +
        s.rate.toNat * (c.toNat - b.toNat) / 1789773 ∧
      w.q.length = s.q.length + s.rate.toNat * (c.toNat - s.wm.toNat) / 1789773 ∧
      u.q.length ≤ w.q.length ∧ w.q.length ≤ u.q.length + 1 ∧
      (s.rate.toNat = 44100 → b.toNat = s.wm.toNat + 40 → c.toNat = s.wm.toNat + 80 →
        u.q.length = s.q.length ∧ w.q.length = s.q.length + 1)

/-- Every sample of a flush is taken inside the window of the flush (42_apu_orchestrator.md R219, 43_oscillators.md
R240). -/
def Obligations.SampleTimesInsideTheWindow : Prop :=
  ∀ (wm c : Cycle) (rate : BitVec 32) (i : Nat), wm ≤ c → i < sampleCount rate (c.toNat - wm.toNat) →
    windowStart wm ≤ sampleTime (windowStart wm) rate.toNat i ∧
    sampleTime (windowStart wm) rate.toNat i < (c.toNat : Rat) / 1789773

/-- Pulse values are -1, 0 or 1, triangle values in [-1, 1], every mixed value in [-0.02355, 0.02355], never NaN or
infinite (42_apu_orchestrator.md R226, 42_apu_orchestrator.md R225, 43_oscillators.md R243, 43_oscillators.md R249).
The last clause is about toF32, the default of an open parameter: log entry 8. -/
def Obligations.MixedValuesBounded : Prop :=
  (∀ (o : PulseOsc) (t0 : Rat) (rate n : Nat) (v : Rat), v ∈ pulseFill o t0 rate n →
    (o.period.toNat < 8 → v = 0) ∧ (8 ≤ o.period.toNat → v = 1 ∨ v = -1)) ∧
  (∀ (p : Period) (t0 : Rat) (rate n : Nat) (v : Rat), v ∈ triangleFill p t0 rate n → -1 ≤ v ∧ v ≤ 1) ∧
  (∀ (s : State) (n : Nat) (v : Rat), v ∈ mixedValues s n →
    -(2355 / 100000) ≤ v ∧ v ≤ 2355 / 100000 ∧ f32Finite (toF32 v) = true)

/-- The triangle stays in [-1, 1], in each quadrant in its range, and consecutive samples differ by at most one step
(R249). -/
def Obligations.TriangleIsContinuous : Prop :=
  (∀ x : Rat,
    (x.floor % 4 = 0 → 0 ≤ triangleWave x ∧ triangleWave x < 1) ∧
    (x.floor % 4 = 1 → 0 < triangleWave x ∧ triangleWave x ≤ 1) ∧
    (x.floor % 4 = 2 → -1 < triangleWave x ∧ triangleWave x ≤ 0) ∧
    (x.floor % 4 = 3 → -1 ≤ triangleWave x ∧ triangleWave x < 0)) ∧
  (∀ x y : Rat, |triangleWave x - triangleWave y| ≤ |x - y|) ∧
  (∀ (p : Period) (t0 : Rat) (rate i : Nat), 0 < rate →
    |triangleAt p (sampleTime t0 rate (i + 1)) - triangleAt p (sampleTime t0 rate i)| ≤
      4 * 1789773 / ((rate : Rat) * 32 * ((p.toNat : Rat) + 1)))

/-- toF32, the default of an open parameter (log entry 8), gives the nearest binary32, ties to even; 0 is +0.0
(42_apu_orchestrator.md R225, 92_eei_decisions.md D19). It says what the conversion is in the default of the
parameter toF32, which the reset state takes by the model's choice: log entry 8. -/
def Obligations.StoredSampleIsNearest : Prop :=
  toF32 0 = 0x00000000 ∧
  ∀ v : Rat, |v| ≤ 1 → f32Finite (toF32 v) = true ∧
    ∀ y : Sample, f32Finite y = true →
      |f32Value (toF32 v) - v| ≤ |f32Value y - v| ∧
      (|f32Value y - v| = |f32Value (toF32 v) - v| →
        f32Value y = f32Value (toF32 v) ∨ (toF32 v).getLsbD 0 = false)

/-- FRAME, which flushes to the current cycle counter, never rewinds: it runs with no fault and moves the watermark to
CYCLES (70_reset_and_hazards.md R336, 30_encoding.md R100). -/
def Obligations.FrameNeverRewinds : Prop :=
  ∀ (s : State) (rest : List Request), s.fault = none → s.wm ≤ s.cycles → (s.att = true → s.fexists = true) →
    s.requests = frame s ++ rest →
    ∃ t, Sys2Proof.core.run 2 s = .next t ∧ t.fault = none ∧ t.wm = s.cycles ∧ t.cycles = s.cycles ∧ t.requests = rest

/-- FIFONEW creates the FIFO once with a rate of 1 to 2^32 - 1; FIFO_EXISTS is checked before BAD_RATE (R270). -/
def Obligations.FifoCreation : Prop :=
  ∀ (c : Cycle) (s : State), s.cur.agent = .sim →
    (s.fexists = true →
      exec (.fifonew c) s = .next { s with fault := s.fault.or (some ⟨.fifoExists, s.cur⟩), resp := none }) ∧
    (s.fexists = false → (c.toNat = 0 ∨ 2 ^ 32 ≤ c.toNat) →
      exec (.fifonew c) s = .next { s with fault := s.fault.or (some ⟨.badRate, s.cur⟩), resp := none }) ∧
    (s.fexists = false → 1 ≤ c.toNat → c.toNat < 2 ^ 32 →
      exec (.fifonew c) s = .next { s with
        fexists := true, rate := BitVec.ofNat 32 c.toNat, q := [], resp := some { r := 0, out := [], ev := [] } })

/-- FIFOWR appends its samples; an unbounded FIFO keeps all, a finite one drops the oldest over its depth; no FIFO is
NO_FIFO (R271, R274). -/
def Obligations.FifoAppendAndCapacity : Prop :=
  ∀ (xs : List Sample) (s : State), s.cur.agent = .sim →
    (s.fexists = false →
      exec (.fifowr xs) s = .next { s with fault := s.fault.or (some ⟨.noFifo, s.cur⟩), resp := none }) ∧
    (s.fexists = true → s.fifoDepth = none →
      exec (.fifowr xs) s = .next { s with q := s.q ++ xs, resp := some { r := 0, out := [], ev := [] } }) ∧
    (∀ d, s.fexists = true → s.fifoDepth = some d →
      ∃ q, exec (.fifowr xs) s = .next { s with
          q := q
          resp := some { r := 0, out := [], ev :=
            if s.q.length + xs.length ≤ d then [] else [.overflow (s.q.length + xs.length - d)] } } ∧
        q <:+ s.q ++ xs ∧ q.length = min d (s.q.length + xs.length))

/-- FIFORD pops up to n samples in order and pads with +0.0 and one EV_UNDERRUN; it never waits (R272). -/
def Obligations.FifoDrain : Prop :=
  ∀ (n : BitVec 32) (s : State), s.cur.agent = .audio →
    (s.fexists = false →
      exec (.fiford n) s = .next { s with fault := s.fault.or (some ⟨.noFifo, s.cur⟩), resp := none }) ∧
    (s.fexists = true →
      ∃ out, exec (.fiford n) s = .next { s with
          q := s.q.drop n.toNat
          resp := some { r := 0, out := out, ev :=
            if s.q.length < n.toNat then [.underrun n.toNat s.q.length] else [] } } ∧
        out.length = n.toNat ∧
        ∀ k, k < n.toNat → out[k]? = some (s.q.getD k 0))

/-- FIFOCLR empties the queue and changes nothing else; with no FIFO it is NO_FIFO (R273). -/
def Obligations.FifoClear : Prop :=
  ∀ s : State, s.cur.agent = .sim →
    (s.fexists = false →
      exec .fifoclr s = .next { s with fault := s.fault.or (some ⟨.noFifo, s.cur⟩), resp := none }) ∧
    (s.fexists = true → exec .fifoclr s = .next { s with q := [], resp := some { r := 0, out := [], ev := [] } })

/-- Across any interleaving samples leave the FIFO in the order appended, received or dropped, none duplicated; FIFO
requests complete (44_sample_buffer_fifo.md R278, 44_sample_buffer_fifo.md R279, 44_sample_buffer_fifo.md R277,
95_test_vectors.md L1.11). -/
def Obligations.FifoOrderAndProgress : Prop :=
  (∀ (k : Nat) (s t : State) (ins : List Sample) (outs : List Departure), Invariant s →
    runLedger k s = some (ins, outs, t) → s.q ++ ins = outs.map Departure.sample ++ t.q) ∧
  (∀ (script : List Instr) (s : State),
    (∀ i ∈ script, (∃ xs, i = .fifowr xs) ∨ (∃ n, i = .fiford n) ∨ i = .fifoclr) →
    s.fault = none → s.fexists = true → s.requests = script.map encode →
    ∃ ins outs t, runLedger script.length s = some (ins, outs, t) ∧ t.fault = none ∧ t.requests = [] ∧
      ins = (script.map samplesOperand).flatten ∧
      (s.fifoDepth = none → Instr.fifoclr ∉ script → ∀ d ∈ outs, ∃ x, d = .received x))
end

