-- ==== Sys2Proof/Laws/State.lean ====
section
/-!
SUPPORT. One lemma per field for each named update of the state, so that no proof unfolds one.
-/
namespace Sys2Proof.Machine

/-! ### `State.respond`: answering a request -/

@[simp] theorem State.respond_a (s : State) (r : Response) : (s.respond r).a = s.a := rfl
@[simp] theorem State.respond_x (s : State) (r : Response) : (s.respond r).x = s.x := rfl
@[simp] theorem State.respond_y (s : State) (r : Response) : (s.respond r).y = s.y := rfl
@[simp] theorem State.respond_sp (s : State) (r : Response) : (s.respond r).sp = s.sp := rfl
@[simp] theorem State.respond_pc (s : State) (r : Response) : (s.respond r).pc = s.pc := rfl
@[simp] theorem State.respond_p (s : State) (r : Response) : (s.respond r).p = s.p := rfl
@[simp] theorem State.respond_ram (s : State) (r : Response) : (s.respond r).ram = s.ram := rfl
@[simp] theorem State.respond_cycles (s : State) (r : Response) : (s.respond r).cycles = s.cycles := rfl
@[simp] theorem State.respond_sq1 (s : State) (r : Response) : (s.respond r).sq1 = s.sq1 := rfl
@[simp] theorem State.respond_sq2 (s : State) (r : Response) : (s.respond r).sq2 = s.sq2 := rfl
@[simp] theorem State.respond_tri (s : State) (r : Response) : (s.respond r).tri = s.tri := rfl
@[simp] theorem State.respond_guest (s : State) (r : Response) : (s.respond r).guest = s.guest := rfl
@[simp] theorem State.respond_host (s : State) (r : Response) : (s.respond r).host = s.host := rfl
@[simp] theorem State.respond_wm (s : State) (r : Response) : (s.respond r).wm = s.wm := rfl
@[simp] theorem State.respond_att (s : State) (r : Response) : (s.respond r).att = s.att := rfl
@[simp] theorem State.respond_fexists (s : State) (r : Response) : (s.respond r).fexists = s.fexists := rfl
@[simp] theorem State.respond_rate (s : State) (r : Response) : (s.respond r).rate = s.rate := rfl
@[simp] theorem State.respond_q (s : State) (r : Response) : (s.respond r).q = s.q := rfl
@[simp] theorem State.respond_fault (s : State) (r : Response) : (s.respond r).fault = s.fault := rfl
@[simp] theorem State.respond_fifoDepth (s : State) (r : Response) : (s.respond r).fifoDepth = s.fifoDepth := rfl
@[simp] theorem State.respond_conversion (s : State) (r : Response) : (s.respond r).conversion = s.conversion := rfl
@[simp] theorem State.respond_requests (s : State) (r : Response) : (s.respond r).requests = s.requests := rfl
@[simp] theorem State.respond_cur (s : State) (r : Response) : (s.respond r).cur = s.cur := rfl
@[simp] theorem State.respond_resp (s : State) (r : Response) : (s.respond r).resp = some r := rfl

/-! ### `State.raise`: raising a model fault -/

@[simp] theorem State.raise_a (s : State) (k : FaultKind) : (s.raise k).a = s.a := rfl
@[simp] theorem State.raise_x (s : State) (k : FaultKind) : (s.raise k).x = s.x := rfl
@[simp] theorem State.raise_y (s : State) (k : FaultKind) : (s.raise k).y = s.y := rfl
@[simp] theorem State.raise_sp (s : State) (k : FaultKind) : (s.raise k).sp = s.sp := rfl
@[simp] theorem State.raise_pc (s : State) (k : FaultKind) : (s.raise k).pc = s.pc := rfl
@[simp] theorem State.raise_p (s : State) (k : FaultKind) : (s.raise k).p = s.p := rfl
@[simp] theorem State.raise_ram (s : State) (k : FaultKind) : (s.raise k).ram = s.ram := rfl
@[simp] theorem State.raise_cycles (s : State) (k : FaultKind) : (s.raise k).cycles = s.cycles := rfl
@[simp] theorem State.raise_sq1 (s : State) (k : FaultKind) : (s.raise k).sq1 = s.sq1 := rfl
@[simp] theorem State.raise_sq2 (s : State) (k : FaultKind) : (s.raise k).sq2 = s.sq2 := rfl
@[simp] theorem State.raise_tri (s : State) (k : FaultKind) : (s.raise k).tri = s.tri := rfl
@[simp] theorem State.raise_guest (s : State) (k : FaultKind) : (s.raise k).guest = s.guest := rfl
@[simp] theorem State.raise_host (s : State) (k : FaultKind) : (s.raise k).host = s.host := rfl
@[simp] theorem State.raise_wm (s : State) (k : FaultKind) : (s.raise k).wm = s.wm := rfl
@[simp] theorem State.raise_att (s : State) (k : FaultKind) : (s.raise k).att = s.att := rfl
@[simp] theorem State.raise_fexists (s : State) (k : FaultKind) : (s.raise k).fexists = s.fexists := rfl
@[simp] theorem State.raise_rate (s : State) (k : FaultKind) : (s.raise k).rate = s.rate := rfl
@[simp] theorem State.raise_q (s : State) (k : FaultKind) : (s.raise k).q = s.q := rfl
@[simp] theorem State.raise_fault (s : State) (k : FaultKind) : (s.raise k).fault = s.fault.or (some { kind := k, request := s.cur }) := rfl
@[simp] theorem State.raise_fifoDepth (s : State) (k : FaultKind) : (s.raise k).fifoDepth = s.fifoDepth := rfl
@[simp] theorem State.raise_conversion (s : State) (k : FaultKind) : (s.raise k).conversion = s.conversion := rfl
@[simp] theorem State.raise_requests (s : State) (k : FaultKind) : (s.raise k).requests = s.requests := rfl
@[simp] theorem State.raise_cur (s : State) (k : FaultKind) : (s.raise k).cur = s.cur := rfl
@[simp] theorem State.raise_resp (s : State) (k : FaultKind) : (s.raise k).resp = none := rfl

/-! ### The power-on state -/

theorem reset_ram_wf : State.reset.ram.wf = true := rfl

theorem reset_requests : State.reset.requests = [] := rfl

end Sys2Proof.Machine
end

