-- ==== Sys2Proof/Laws/Memory.lean ====
section
/-!
SUPPORT. The laws of RAM: a read after a write, and that a write keeps the canonical form.
-/
namespace Sys2Proof.Machine

@[simp] theorem Memory.read_nil (i : Nat) : Memory.read [] i = Memory.unlisted := rfl

theorem Memory.read_of_lt_lo (m : Memory) (lo i : Nat) (h : Memory.wfFrom lo m = true) (hi : i < lo) :
    m.read i = Memory.unlisted := by
  induction m generalizing lo with
  | nil => rfl
  | cons e rest ih =>
    obtain ⟨k, b⟩ := e
    simp only [Memory.wfFrom, Bool.and_eq_true, decide_eq_true_eq] at h
    have hk : k ≠ i := by omega
    simp only [Memory.read, if_neg hk]
    exact ih (k + 1) h.2 (by omega)

theorem Memory.wfFrom_mono (m : Memory) (lo lo' : Nat) (h : Memory.wfFrom lo m = true) (hl : lo' ≤ lo) :
    Memory.wfFrom lo' m = true := by
  cases m with
  | nil => rfl
  | cons e rest =>
    obtain ⟨k, b⟩ := e
    simp only [Memory.wfFrom, Bool.and_eq_true, decide_eq_true_eq] at h ⊢
    exact ⟨⟨⟨by omega, h.1.1.2⟩, h.1.2⟩, h.2⟩

/-- Reading back the index written gives the value, and every other index reads as before. -/
theorem Memory.read_write (m : Memory) (i j : Nat) (v : Byte) (lo : Nat) (h : Memory.wfFrom lo m = true) :
    (m.write i v).read j = if j = i then v else m.read j := by
  induction m generalizing lo with
  | nil =>
    by_cases hv : v = Memory.unlisted
    · subst hv
      simp [Memory.write]
    · by_cases hj : j = i
      · subst hj
        simp [Memory.write, hv, Memory.read]
      · have hj' : i ≠ j := fun e => hj e.symm
        simp [Memory.write, hv, Memory.read, hj, hj']
  | cons e rest ih =>
    obtain ⟨k, b⟩ := e
    simp only [Memory.wfFrom, Bool.and_eq_true, decide_eq_true_eq] at h
    have hrest : ∀ n, n < k + 1 → Memory.read rest n = Memory.unlisted := fun n hn =>
      Memory.read_of_lt_lo rest (k + 1) n h.2 hn
    by_cases hik : i < k
    · by_cases hv : v = Memory.unlisted
      · by_cases hj : j = i
        · subst hj
          have hkj : k ≠ j := by omega
          simp [Memory.write, hik, hv, Memory.read, hkj, hrest j (by omega)]
        · simp [Memory.write, hik, hv, hj]
      · by_cases hj : j = i
        · subst hj
          simp [Memory.write, hik, hv, Memory.read]
        · have hj' : i ≠ j := fun e => hj e.symm
          simp [Memory.write, hik, hv, Memory.read, hj, hj']
    · by_cases hek : i = k
      · subst hek
        by_cases hv : v = Memory.unlisted
        · by_cases hj : j = i
          · subst hj
            simp [Memory.write, hv, hrest j (by omega)]
          · have hj' : i ≠ j := fun e => hj e.symm
            simp [Memory.write, hv, Memory.read, hj, hj']
        · by_cases hj : j = i
          · subst hj
            simp [Memory.write, hv, Memory.read]
          · have hj' : i ≠ j := fun e => hj e.symm
            simp [Memory.write, hv, Memory.read, hj, hj']
      · simp only [Memory.write, if_neg hik, if_neg hek, Memory.read]
        rw [ih (k + 1) h.2]
        by_cases hkj : k = j
        · have : j ≠ i := by omega
          simp [hkj, this]
        · simp [hkj]

/-- A write inside the RAM keeps the canonical form. -/
theorem Memory.wfFrom_write (m : Memory) (i : Nat) (v : Byte) (lo : Nat) (h : Memory.wfFrom lo m = true)
    (hi : i < Config.ramSize) (hl : lo ≤ i) : Memory.wfFrom lo (m.write i v) = true := by
  induction m generalizing lo with
  | nil =>
    by_cases hv : v = Memory.unlisted
    · simp [Memory.write, hv, Memory.wfFrom]
    · simp [Memory.write, hv, Memory.wfFrom, hi, hl]
  | cons e rest ih =>
    obtain ⟨k, b⟩ := e
    simp only [Memory.wfFrom, Bool.and_eq_true, decide_eq_true_eq] at h
    obtain ⟨⟨⟨h1, h2⟩, h3⟩, h4⟩ := h
    by_cases hik : i < k
    · by_cases hv : v = Memory.unlisted
      · simp [Memory.write, hik, hv, Memory.wfFrom, h1, h2, h3, h4]
      · have : i + 1 ≤ k := hik
        simp [Memory.write, hik, hv, Memory.wfFrom, hi, hl, this, h2, h3, h4]
    · by_cases hek : i = k
      · subst hek
        by_cases hv : v = Memory.unlisted
        · simp [Memory.write, hv, Memory.wfFrom_mono rest (i + 1) lo h4 (by omega)]
        · simp [Memory.write, hv, Memory.wfFrom, hi, hl, h4]
      · simp only [Memory.write, if_neg hik, if_neg hek, Memory.wfFrom, Bool.and_eq_true, decide_eq_true_eq]
        exact ⟨⟨⟨h1, h2⟩, h3⟩, ih (k + 1) h4 (by omega)⟩

/-- Every RAM write the block makes keeps the canonical form. -/
theorem Memory.wf_write (m : Memory) (i : Nat) (v : Byte) (h : m.wf = true) (hi : i < Config.ramSize) :
    (m.write i v).wf = true := Memory.wfFrom_write m i v 0 h hi (Nat.zero_le i)

/-- Reading after a write to canonical RAM. -/
theorem Memory.read_write_wf (m : Memory) (i j : Nat) (v : Byte) (h : m.wf = true) :
    (m.write i v).read j = if j = i then v else m.read j := Memory.read_write m i j v 0 h

theorem ramIndex_lt (addr : Addr) : ramIndex addr < Config.ramSize := Nat.mod_lt _ (by decide)

end Sys2Proof.Machine
end

