-- ==== Sys2Proof/Laws/Ops.lean ====
section
/-!
SUPPORT. One lemma per shared operation, saying everything it can do; the proofs about instructions cite these.
-/
namespace Sys2Proof.Machine

/-- Everything `perform` can answer: AGENT, a fault of the body, or the body's state with its response. -/
theorem perform_next {who : Agent} {s t : State} {body : Except FaultKind (Response × State)}
    (h : perform who s body = .next t) :
    (s.cur.agent ≠ who ∧ t = s.raise .agent) ∨
    (s.cur.agent = who ∧ ∃ k, body = .error k ∧ t = s.raise k) ∨
    (s.cur.agent = who ∧ ∃ r s', body = .ok (r, s') ∧ t = s'.respond r) := by
  unfold perform at h
  split at h
  · rename_i ha
    cases body with
    | error k => exact .inr (.inl ⟨ha, k, rfl, by simpa using h.symm⟩)
    | ok v => exact .inr (.inr ⟨ha, v.1, v.2, rfl, by simpa using h.symm⟩)
  · exact .inl ⟨‹_›, by simpa using h.symm⟩

/-- `perform` always answers a next state. -/
theorem perform_total (who : Agent) (s : State) (body : Except FaultKind (Response × State)) :
    ∃ t, perform who s body = .next t := by
  unfold perform
  split
  · cases body <;> exact ⟨_, rfl⟩
  · exact ⟨_, rfl⟩

theorem perform_ok {who : Agent} {s s' : State} {r : Response} (ha : s.cur.agent = who) :
    perform who s (.ok (r, s')) = .next (s'.respond r) := by simp [perform, ha]

theorem perform_error {who : Agent} {s : State} {k : FaultKind} (ha : s.cur.agent = who) :
    perform who s (.error k) = .next (s.raise k) := by simp [perform, ha]

theorem perform_wrong_agent {who : Agent} {s : State} (ha : s.cur.agent ≠ who)
    (body : Except FaultKind (Response × State)) : perform who s body = .next (s.raise .agent) := by
  simp [perform, ha]

/-- What `Tick` does (10_state.md R30). -/
theorem tick_eq (s : State) :
    tick s = if s.cycles = Config.cycleMax then .error .cycleOverflow else .ok { s with cycles := s.cycles + 1 } := rfl

/-- A byte read in closed form: the only fault is the counter's, the only change the tick. -/
theorem memRead_eq (addr : Addr) (s : State) :
    memRead addr s =
      if s.cycles = Config.cycleMax then .error .cycleOverflow
      else .ok (busByte s addr, readEvents addr, { s with cycles := s.cycles + 1 }) := by
  by_cases h : s.cycles = Config.cycleMax
  · simp [memRead, tick, h, bind, Except.bind]
  · by_cases hw : inWindow addr = true <;> simp [memRead, tick, h, bind, Except.bind, busByte, readEvents, hw]

/-- A byte write in closed form: the tick, and the RAM byte when the address is in the window. -/
theorem memWrite_eq (addr : Addr) (v : Byte) (s : State) :
    memWrite addr v s =
      if s.cycles = Config.cycleMax then .error .cycleOverflow
      else .ok (writeEvents addr v,
        { s with cycles := s.cycles + 1, ram := if inWindow addr then s.ram.write (ramIndex addr) v else s.ram }) := by
  by_cases h : s.cycles = Config.cycleMax
  · simp [memWrite, tick, h, bind, Except.bind]
  · by_cases hw : inWindow addr = true <;> simp [memWrite, tick, h, bind, Except.bind, writeEvents, hw]

/-- Everything a push of one byte can answer. -/
theorem pushByte_ok {v : Byte} {s s' : State} {ev : List Event} (h : pushByte v s = .ok (ev, s')) :
    s.cycles ≠ Config.cycleMax ∧ ev = writeEvents (stackAddr s.sp) v ∧
    s' = { s with cycles := s.cycles + 1, sp := s.sp - 1,
                  ram := if inWindow (stackAddr s.sp) then s.ram.write (ramIndex (stackAddr s.sp)) v else s.ram } := by
  by_cases hc : s.cycles = Config.cycleMax
  · simp [pushByte, memWrite_eq, hc, bind, Except.bind] at h
  · simp [pushByte, memWrite_eq, hc, bind, Except.bind] at h
    exact ⟨hc, h.1.symm, h.2.symm⟩

/-- Everything a pop of one byte can answer. -/
theorem popByte_ok {v : Byte} {s s' : State} {ev : List Event} (h : popByte s = .ok (v, ev, s')) :
    s.cycles ≠ Config.cycleMax ∧ v = busByte s (stackAddr (s.sp + 1)) ∧ ev = readEvents (stackAddr (s.sp + 1)) ∧
    s' = { s with cycles := s.cycles + 1, sp := s.sp + 1 } := by
  by_cases hc : s.cycles = Config.cycleMax
  · simp [popByte, memRead_eq, hc] at h
  · simp [popByte, memRead_eq, hc] at h
    exact ⟨hc, by simpa [busByte] using h.1.symm, h.2.1.symm, h.2.2.symm⟩

/-- The stack page is inside the RAM window, so a stack access never leaves it (60_exceptions.md R300). -/
theorem stackAddr_inWindow (sp : Byte) : inWindow (stackAddr sp) = true := by
  revert sp; decide

/-- The RAM index of a stack address is `0x100 + SP`. -/
theorem ramIndex_stackAddr (sp : Byte) : ramIndex (stackAddr sp) = 256 + sp.toNat := by
  revert sp; decide

/-- An append touches the queue alone (44_sample_buffer_fifo.md R271, R274). -/
theorem fifoAppend_ok {xs : List Sample} {s s' : State} {ev : List Event} (h : fifoAppend xs s = .ok (ev, s')) :
    s.fexists = true ∧ s' = { s with q := (boundQueue s.fifoDepth (s.q ++ xs)).1 } ∧
    ev = if (boundQueue s.fifoDepth (s.q ++ xs)).2 = 0 then [] else [.overflow (boundQueue s.fifoDepth (s.q ++ xs)).2] := by
  unfold fifoAppend at h
  split at h
  · simp only [Except.ok.injEq, Prod.mk.injEq] at h
    exact ⟨‹_›, h.2.symm, h.1.symm⟩
  · exact absurd h (by simp)

/-- A bounded queue is not longer than its depth. -/
theorem boundQueue_length (d : Nat) (q : List Sample) : (boundQueue (some d) q).1.length ≤ d := by
  simp [boundQueue]; omega

/-- Everything a flush can answer (42_apu_orchestrator.md R215): the watermark is `end`, and only an attached flush with a
sample appends. -/
theorem flush_ok {f : Rat → Sample} {c : Cycle} {s s' : State} {ev : List Event} (h : flush f c s = .ok (ev, s')) :
    s.wm ≤ c ∧
    ((s' = { s with wm := c } ∧ ev = [] ∧ (s.att = true → sampleCount s.rate (c.toNat - s.wm.toNat) = 0)) ∨
     (s.att = true ∧ 0 < sampleCount s.rate (c.toNat - s.wm.toNat) ∧ ∃ s1,
        fifoAppend (flushSamples f c s) s = .ok (ev, s1) ∧
        s' = { s1 with wm := c })) := by
  unfold flush at h
  split at h
  · exact absurd h (by simp)
  rename_i hw
  refine ⟨by bv_omega, ?_⟩
  split at h
  · rename_i ha
    split at h
    · rename_i hn
      refine .inr ⟨ha, hn, ?_⟩
      cases hf : fifoAppend (flushSamples f c s) s with
      | error k => simp [hf, bind, Except.bind] at h
      | ok v =>
        simp [hf, bind, Except.bind] at h
        exact ⟨v.2, by rw [← h.1], h.2.symm⟩
    · rename_i hn
      simp at h
      exact .inl ⟨h.2.symm, h.1, fun _ => by omega⟩
  · rename_i ha
    simp at h
    exact .inl ⟨h.2.symm, h.1, fun hat => absurd hat ha⟩

/-- A flush changes nothing but the watermark and the queue. -/
theorem flush_frame {f : Rat → Sample} {c : Cycle} {s s' : State} {ev : List Event} (h : flush f c s = .ok (ev, s')) :
    s' = { s with wm := c, q := s'.q } := by
  obtain ⟨_, h | ⟨_, _, s1, ha, rfl⟩⟩ := flush_ok h
  · rw [h.1]
  · simp [(fifoAppend_ok ha).2.1]

/-- A flush completes when its target is not below the watermark and an attached FIFO exists (R216, R271). -/
theorem flush_total (f : Rat → Sample) {c : Cycle} {s : State} (h : s.wm ≤ c) (hf : s.att = true → s.fexists = true) :
    ∃ ev q, flush f c s = .ok (ev, { s with wm := c, q := q }) := by
  have hn : ¬ c < s.wm := by bv_omega
  unfold flush
  rw [if_neg hn]
  split
  · rename_i ha
    split
    · simp only [fifoAppend, hf ha, if_true, bind, Except.bind]
      exact ⟨_, _, rfl⟩
    · exact ⟨_, _, rfl⟩
  · exact ⟨_, s.q, rfl⟩

/-- A register function leaves everything but the oscillators and the guest mask as it was (42_apu_orchestrator.md R200 to
R212). -/
theorem dispatchReg_frame (reg : ApuReg) (v : Byte) (s : State) :
    dispatchReg reg v s =
      { s with sq1 := (dispatchReg reg v s).sq1, sq2 := (dispatchReg reg v s).sq2,
               tri := (dispatchReg reg v s).tri, guest := (dispatchReg reg v s).guest } := by
  cases reg <;> rfl

/-- Every instruction answers a next state: a model fault is recorded in the state (60_exceptions.md R305). -/
theorem exec_total (i : Instr) (s : State) : ∃ t, exec i s = .next t := by
  cases i with
  | getf f => simp only [exec, execGetf]; split <;> first | exact ⟨_, rfl⟩ | exact perform_total ..
  | setf f b => simp only [exec, execSetf]; split <;> first | exact ⟨_, rfl⟩ | exact perform_total ..
  | toggle ch => simp only [exec, execToggle]; split <;> first | exact ⟨_, rfl⟩ | exact perform_total ..
  | reset => simp only [exec, execReset]; exact perform_total ..
  | geta => simp only [exec, execGeta]; exact perform_total ..
  | seta _ => simp only [exec, execSeta]; exact perform_total ..
  | getx => simp only [exec, execGetx]; exact perform_total ..
  | setx _ => simp only [exec, execSetx]; exact perform_total ..
  | gety => simp only [exec, execGety]; exact perform_total ..
  | sety _ => simp only [exec, execSety]; exact perform_total ..
  | getsp => simp only [exec, execGetsp]; exact perform_total ..
  | setsp _ => simp only [exec, execSetsp]; exact perform_total ..
  | getpc => simp only [exec, execGetpc]; exact perform_total ..
  | setpc _ => simp only [exec, execSetpc]; exact perform_total ..
  | getp => simp only [exec, execGetp]; exact perform_total ..
  | setp _ => simp only [exec, execSetp]; exact perform_total ..
  | getcyc => simp only [exec, execGetcyc]; exact perform_total ..
  | _ => exact perform_total ..

end Sys2Proof.Machine
end

