-- ==== Sys2Proof/Laws/Codec.lean ====
section
/-!
SUPPORT. The fields of a command word, and of the operands inside its `a` and `d` fields.
-/
namespace Sys2Proof

@[simp] theorem opField_cmdWord (op : BitVec 8) (a d : BitVec 16) : opField (cmdWord op a d) = op := by
  apply BitVec.eq_of_getLsbD_eq
  intro i hi
  simp only [opField, cmdWord, BitVec.getLsbD_cast, BitVec.getLsbD_append, BitVec.getLsbD_extractLsb']
  have h1 : ¬ 32 + i < 16 := by omega
  have h2 : ¬ 32 + i - 16 < 16 := by omega
  have h3 : 32 + i - 16 - 16 = i := by omega
  simp [h1, h2, h3, hi]

@[simp] theorem addrField_cmdWord (op : BitVec 8) (a d : BitVec 16) : addrField (cmdWord op a d) = a := by
  apply BitVec.eq_of_getLsbD_eq
  intro i hi
  simp only [addrField, cmdWord, BitVec.getLsbD_cast, BitVec.getLsbD_append, BitVec.getLsbD_extractLsb']
  have h1 : ¬ 16 + i < 16 := by omega
  have h3 : 16 + i - 16 = i := by omega
  simp [h1, h3, hi]

@[simp] theorem dataField_cmdWord (op : BitVec 8) (a d : BitVec 16) : dataField (cmdWord op a d) = d := by
  apply BitVec.eq_of_getLsbD_eq
  intro i hi
  simp only [dataField, cmdWord, BitVec.getLsbD_cast, BitVec.getLsbD_append, BitVec.getLsbD_extractLsb']
  simp [hi]

/-- A command word is its three fields. -/
theorem cmdWord_fields (w : CmdWord) : cmdWord (opField w) (addrField w) (dataField w) = w := by
  apply BitVec.eq_of_getLsbD_eq
  intro i hi
  simp only [opField, addrField, dataField, cmdWord, BitVec.getLsbD_cast, BitVec.getLsbD_append,
    BitVec.getLsbD_extractLsb']
  by_cases h1 : i < 16
  · simp [h1]
  · by_cases h2 : i - 16 < 16
    · have : 16 + (i - 16) = i := by omega
      simp [h1, h2, this]
    · have h3 : 32 + (i - 16 - 16) = i := by omega
      have h4 : i - 16 - 16 < 8 := by omega
      simp [h1, h2, h3, h4]

@[simp] theorem v8Of_setWidth (v : Byte) : v8Of (v.setWidth 16) = v := by
  revert v; decide

@[simp] theorem highByte_setWidth (v : Byte) : (v.setWidth 16).extractLsb' 8 8 = 0#8 := by
  revert v; decide

end Sys2Proof
end

