-- ==== Sys2Proof/Laws/Effect.lean ====
section
/-!
SUPPORT. What an instruction can do, said once for all of them: `exec` answers a model fault, or a response on the state
`Effect` describes. The proofs about every instruction split on this instead of unfolding each meaning.
-/
namespace Sys2Proof.Machine

/-- RAM after a bus byte write (20_memory.md R61, R62). -/
def storeByte (m : Memory) (addr : Addr) (v : Byte) : Memory :=
  if inWindow addr then m.write (ramIndex addr) v else m

/-- The state a completed request leaves, but for the response. -/
def Effect : Instr → State → State → Prop
  | .rd8 _, s, s' => s.cycles ≠ Config.cycleMax ∧ s' = { s with cycles := s.cycles + 1 }
  | .wr8 a v, s, s' =>
    s.cycles ≠ Config.cycleMax ∧ s' = { s with cycles := s.cycles + 1, ram := storeByte s.ram a v }
  | .rd16 _, s, s' =>
    s.cycles ≠ Config.cycleMax ∧ s.cycles + 1 ≠ Config.cycleMax ∧ s' = { s with cycles := s.cycles + 1 + 1 }
  | .wr16 a v, s, s' =>
    s.cycles ≠ Config.cycleMax ∧ s.cycles + 1 ≠ Config.cycleMax ∧
    s' = { s with
      cycles := s.cycles + 1 + 1
      ram := storeByte (storeByte s.ram a (v.extractLsb' 0 8)) (a + 1) (v.extractLsb' 8 8) }
  | .fetch, s, s' => s.cycles ≠ Config.cycleMax ∧ s' = { s with cycles := s.cycles + 1, pc := s.pc + 1 }
  | .push8 v, s, s' =>
    s.cycles ≠ Config.cycleMax ∧
    s' = { s with cycles := s.cycles + 1, sp := s.sp - 1, ram := storeByte s.ram (stackAddr s.sp) v }
  | .pop8, s, s' => s.cycles ≠ Config.cycleMax ∧ s' = { s with cycles := s.cycles + 1, sp := s.sp + 1 }
  | .push16 v, s, s' =>
    s.cycles ≠ Config.cycleMax ∧ s.cycles + 1 ≠ Config.cycleMax ∧
    s' = { s with
      cycles := s.cycles + 1 + 1
      sp := s.sp - 1 - 1
      ram := storeByte (storeByte s.ram (stackAddr s.sp) (v.extractLsb' 8 8)) (stackAddr (s.sp - 1)) (v.extractLsb' 0 8) }
  | .pop16, s, s' =>
    s.cycles ≠ Config.cycleMax ∧ s.cycles + 1 ≠ Config.cycleMax ∧
    s' = { s with cycles := s.cycles + 1 + 1, sp := s.sp + 1 + 1 }
  | .reset, s, s' => s' = { s with sp := Config.spPowerOn }
  | .geta, s, s' => s' = s
  | .seta v, s, s' => s' = { s with a := v }
  | .getx, s, s' => s' = s
  | .setx v, s, s' => s' = { s with x := v }
  | .gety, s, s' => s' = s
  | .sety v, s, s' => s' = { s with y := v }
  | .getsp, s, s' => s' = s
  | .setsp v, s, s' => s' = { s with sp := v }
  | .getpc, s, s' => s' = s
  | .setpc v, s, s' => s' = { s with pc := v }
  | .getp, s, s' => s' = s
  | .setp v, s, s' => s' = { s with p := fromByte v }
  | .getf f, s, s' => noFlag f = false ∧ s' = s
  | .setf f b, s, s' => noFlag f = false ∧ s' = { s with p := setFlagBit s.p f b }
  | .getcyc, s, s' => s' = s
  | .apuinit attach h c, s, s' =>
    (attach = true → s.fexists = true) ∧
    s' = { s with sq1 := ⟨0, 0⟩, sq2 := ⟨0, 0⟩, tri := 0, guest := 0, host := h, wm := c, att := attach }
  | .apuwr a v c, s, s' => ∃ ev s1, flush (convert s.conversion) c s = .ok (ev, s1) ∧ s' = dispatchReg (apuReg a) v s1
  | .toggle ch, s, s' => noChannel ch = false ∧ s' = { s with host := toggleBit s.host ch }
  | .run c, s, s' => ∃ ev, flush (convert s.conversion) c s = .ok (ev, s')
  | .fifonew c, s, s' =>
    s.fexists = false ∧ c ≠ 0 ∧ c.toNat < 2 ^ 32 ∧ s' = { s with fexists := true, rate := c.setWidth 32, q := [] }
  | .fifowr xs, s, s' => ∃ ev, fifoAppend xs s = .ok (ev, s')
  | .fiford n, s, s' => s.fexists = true ∧ s' = { s with q := s.q.drop (min n.toNat s.q.length) }
  | .fifoclr, s, s' => s.fexists = true ∧ s' = { s with q := [] }
  | .apuwrSq1Ctrl v c, s, s' => ∃ ev s1, flush (convert s.conversion) c s = .ok (ev, s1) ∧ s' = dispatchReg .sq1Ctrl v s1
  | .apuwrSq1Ramp v c, s, s' => ∃ ev s1, flush (convert s.conversion) c s = .ok (ev, s1) ∧ s' = dispatchReg .sq1Ramp v s1
  | .apuwrSq1Lo v c, s, s' => ∃ ev s1, flush (convert s.conversion) c s = .ok (ev, s1) ∧ s' = dispatchReg .sq1Lo v s1
  | .apuwrSq1Hi v c, s, s' => ∃ ev s1, flush (convert s.conversion) c s = .ok (ev, s1) ∧ s' = dispatchReg .sq1Hi v s1
  | .apuwrSq2Ctrl v c, s, s' => ∃ ev s1, flush (convert s.conversion) c s = .ok (ev, s1) ∧ s' = dispatchReg .sq2Ctrl v s1
  | .apuwrSq2Ramp v c, s, s' => ∃ ev s1, flush (convert s.conversion) c s = .ok (ev, s1) ∧ s' = dispatchReg .sq2Ramp v s1
  | .apuwrSq2Lo v c, s, s' => ∃ ev s1, flush (convert s.conversion) c s = .ok (ev, s1) ∧ s' = dispatchReg .sq2Lo v s1
  | .apuwrSq2Hi v c, s, s' => ∃ ev s1, flush (convert s.conversion) c s = .ok (ev, s1) ∧ s' = dispatchReg .sq2Hi v s1
  | .apuwrTriCtrl v c, s, s' => ∃ ev s1, flush (convert s.conversion) c s = .ok (ev, s1) ∧ s' = dispatchReg .triCtrl v s1
  | .apuwrTriLo v c, s, s' => ∃ ev s1, flush (convert s.conversion) c s = .ok (ev, s1) ∧ s' = dispatchReg .triLo v s1
  | .apuwrTriHi v c, s, s' => ∃ ev s1, flush (convert s.conversion) c s = .ok (ev, s1) ∧ s' = dispatchReg .triHi v s1
  | .apuwrEnable v c, s, s' => ∃ ev s1, flush (convert s.conversion) c s = .ok (ev, s1) ∧ s' = dispatchReg .enable v s1
  | .apuwrIgnored _ v c, s, s' => ∃ ev s1, flush (convert s.conversion) c s = .ok (ev, s1) ∧ s' = dispatchReg .ignored v s1

/-- Everything an `APUWR` row can answer: a model fault, or the flush followed by its register function. -/
theorem writeRegister_next {reg : ApuReg} {v : Byte} {c : Cycle} {s t : State}
    (h : writeRegister (dispatchReg reg v) c s = .next t) :
    (∃ k, t = s.raise k) ∨ ∃ r s', t = s'.respond r ∧ ∃ ev s1, flush (convert s.conversion) c s = .ok (ev, s1) ∧ s' = dispatchReg reg v s1 := by
  rcases perform_next h with ⟨_, ht⟩ | ⟨_, k, _, ht⟩ | ⟨_, r, s', hb, ht⟩
  · exact .inl ⟨_, ht⟩
  · exact .inl ⟨k, ht⟩
  · cases hf : flush (convert s.conversion) c s with
    | error k => simp [hf, bind, Except.bind] at hb
    | ok w =>
      simp [hf, bind, Except.bind] at hb
      exact .inr ⟨r, s', ht, w.1, w.2, rfl, hb.2.symm⟩

theorem memRead_ok {addr : Addr} {s : State} {w : Byte × List Event × State} (h : memRead addr s = .ok w) :
    s.cycles ≠ Config.cycleMax ∧ w = (busByte s addr, readEvents addr, { s with cycles := s.cycles + 1 }) := by
  rw [memRead_eq] at h
  split at h
  · cases h
  · exact ⟨‹_›, by simpa using h.symm⟩

theorem memWrite_ok {addr : Addr} {v : Byte} {s : State} {w : List Event × State} (h : memWrite addr v s = .ok w) :
    s.cycles ≠ Config.cycleMax ∧
    w = (writeEvents addr v, { s with cycles := s.cycles + 1, ram := storeByte s.ram addr v }) := by
  rw [memWrite_eq] at h
  split at h
  · cases h
  · exact ⟨‹_›, by simpa [storeByte] using h.symm⟩

/-- Everything an instruction can do: record a model fault on the state it started from, or answer on the state its effect
describes. -/
theorem exec_effect {i : Instr} {s t : State} (h : exec i s = .next t) :
    (∃ k, t = s.raise k) ∨ ∃ r s', t = s'.respond r ∧ Effect i s s' := by
  have finish : ∀ {who : Agent} {body : Except FaultKind (Response × State)},
      perform who s body = .next t → (∀ r s', body = .ok (r, s') → Effect i s s') →
      (∃ k, t = s.raise k) ∨ ∃ r s', t = s'.respond r ∧ Effect i s s' := by
    intro who body hp he
    rcases perform_next hp with ⟨_, ht⟩ | ⟨_, k, _, ht⟩ | ⟨_, r, s', hb, ht⟩
    · exact .inl ⟨_, ht⟩
    · exact .inl ⟨k, ht⟩
    · exact .inr ⟨r, s', ht, he r s' hb⟩
  cases i with
  | rd8 a =>
    refine finish h fun r s' hb => ?_
    cases hm : memRead a s with
    | error k => simp [hm, bind, Except.bind] at hb
    | ok w =>
      obtain ⟨h1, rfl⟩ := memRead_ok hm
      simp [hm, bind, Except.bind] at hb
      exact ⟨h1, hb.2.symm⟩
  | wr8 a v =>
    refine finish h fun r s' hb => ?_
    cases hm : memWrite a v s with
    | error k => simp [hm, bind, Except.bind] at hb
    | ok w =>
      obtain ⟨h1, rfl⟩ := memWrite_ok hm
      simp [hm, bind, Except.bind] at hb
      exact ⟨h1, hb.2.symm⟩
  | rd16 a =>
    refine finish h fun r s' hb => ?_
    cases hm : memRead a s with
    | error k => simp [memRead16, hm, bind, Except.bind] at hb
    | ok w =>
      obtain ⟨h1, rfl⟩ := memRead_ok hm
      cases hn : memRead (a + 1) { s with cycles := s.cycles + 1 } with
      | error k =>
        simp only [memRead16, hm, hn, bind, Except.bind] at hb
        cases hb
      | ok w2 =>
        obtain ⟨h2, rfl⟩ := memRead_ok hn
        simp only [memRead16, hm, hn, bind, Except.bind, Except.ok.injEq, Prod.mk.injEq] at hb
        exact ⟨h1, h2, hb.2.symm⟩
  | wr16 a v =>
    refine finish h fun r s' hb => ?_
    cases hm : memWrite a (v.extractLsb' 0 8) s with
    | error k => simp [memWrite16, hm, bind, Except.bind] at hb
    | ok w =>
      obtain ⟨h1, rfl⟩ := memWrite_ok hm
      cases hn : memWrite (a + 1) (v.extractLsb' 8 8)
          { s with cycles := s.cycles + 1, ram := storeByte s.ram a (v.extractLsb' 0 8) } with
      | error k =>
        simp only [memWrite16, hm, hn, bind, Except.bind] at hb
        cases hb
      | ok w2 =>
        obtain ⟨h2, rfl⟩ := memWrite_ok hn
        simp only [memWrite16, hm, hn, bind, Except.bind, Except.ok.injEq, Prod.mk.injEq] at hb
        exact ⟨h1, h2, hb.2.symm⟩
  | fetch =>
    refine finish h fun r s' hb => ?_
    cases hm : memRead s.pc s with
    | error k => simp [hm, bind, Except.bind] at hb
    | ok w =>
      obtain ⟨h1, rfl⟩ := memRead_ok hm
      simp [hm, bind, Except.bind] at hb
      exact ⟨h1, hb.2.symm⟩
  | push8 v =>
    refine finish h fun r s' hb => ?_
    cases hm : memWrite (stackAddr s.sp) v s with
    | error k => simp [pushByte, hm, bind, Except.bind] at hb
    | ok w =>
      obtain ⟨h1, rfl⟩ := memWrite_ok hm
      simp [pushByte, hm, bind, Except.bind] at hb
      exact ⟨h1, hb.2.symm⟩
  | pop8 =>
    refine finish h fun r s' hb => ?_
    cases hm : popByte s with
    | error k => simp [hm, bind, Except.bind] at hb
    | ok w =>
      obtain ⟨h1, _, _, h4⟩ := popByte_ok hm
      simp [hm, bind, Except.bind] at hb
      exact ⟨h1, hb.2.symm.trans h4⟩
  | push16 v =>
    refine finish h fun r s' hb => ?_
    cases hm : pushByte (v.extractLsb' 8 8) s with
    | error k => simp [hm, bind, Except.bind] at hb
    | ok w =>
      obtain ⟨h1, _, h3⟩ := pushByte_ok hm
      cases hn : pushByte (v.extractLsb' 0 8) w.2 with
      | error k => simp [hm, hn, bind, Except.bind] at hb
      | ok w2 =>
        obtain ⟨h4, _, h6⟩ := pushByte_ok hn
        simp [hm, hn, bind, Except.bind] at hb
        rw [h3] at h4
        refine ⟨h1, h4, hb.2.symm.trans ?_⟩
        rw [h6, h3]
        simp only [storeByte]
  | pop16 =>
    refine finish h fun r s' hb => ?_
    cases hm : popByte s with
    | error k => simp [hm, bind, Except.bind] at hb
    | ok w =>
      obtain ⟨h1, _, _, h4⟩ := popByte_ok hm
      cases hn : popByte w.2.2 with
      | error k => simp [hm, hn, bind, Except.bind] at hb
      | ok w2 =>
        obtain ⟨g1, _, _, g4⟩ := popByte_ok hn
        simp [hm, hn, bind, Except.bind] at hb
        rw [h4] at g1
        refine ⟨h1, g1, hb.2.symm.trans ?_⟩
        rw [g4, h4]
  | getf f =>
    simp only [exec, execGetf] at h
    split at h
    · exact .inl ⟨.illegal, by simpa using h.symm⟩
    · rename_i hf
      refine finish h fun r s' hb => ?_
      simp at hb
      exact ⟨by simpa using hf, hb.2.symm⟩
  | setf f b =>
    simp only [exec, execSetf] at h
    split at h
    · exact .inl ⟨.illegal, by simpa using h.symm⟩
    · rename_i hf
      refine finish h fun r s' hb => ?_
      simp at hb
      exact ⟨by simpa using hf, hb.2.symm⟩
  | toggle ch =>
    simp only [exec, execToggle] at h
    split at h
    · exact .inl ⟨.illegal, by simpa using h.symm⟩
    · rename_i hf
      refine finish h fun r s' hb => ?_
      simp at hb
      exact ⟨by simpa using hf, hb.2.symm⟩
  | apuinit attach hostinit c =>
    refine finish h fun r s' hb => ?_
    split at hb
    · cases hb
    · rename_i hn
      simp at hb hn
      exact ⟨fun ha => hn ha, hb.2.symm⟩
  | run c =>
    refine finish h fun r s' hb => ?_
    cases hf : flush (convert s.conversion) c s with
    | error k => simp [hf, bind, Except.bind] at hb
    | ok w =>
      simp [hf, bind, Except.bind] at hb
      exact ⟨w.1, by rw [← hb.2, hf]⟩
  | fifonew c =>
    refine finish h fun r s' hb => ?_
    split at hb
    · cases hb
    · rename_i he
      split at hb
      · cases hb
      · rename_i hc
        simp at hb hc
        exact ⟨by simpa using he, hc.1, hc.2, hb.2.symm⟩
  | fifowr xs =>
    refine finish h fun r s' hb => ?_
    cases hf : fifoAppend xs s with
    | error k => simp [hf, bind, Except.bind] at hb
    | ok w =>
      simp [hf, bind, Except.bind] at hb
      exact ⟨w.1, by rw [← hb.2, hf]⟩
  | fiford n =>
    refine finish h fun r s' hb => ?_
    split at hb
    · simp at hb
      exact ⟨‹_›, by simp [hb.2.symm]⟩
    · cases hb
  | fifoclr =>
    refine finish h fun r s' hb => ?_
    split at hb
    · simp at hb
      exact ⟨‹_›, hb.2.symm⟩
    · cases hb
  | apuwr a v c => exact writeRegister_next h
  | apuwrSq1Ctrl v c => exact writeRegister_next (reg := .sq1Ctrl) h
  | apuwrSq1Ramp v c => exact writeRegister_next (reg := .sq1Ramp) h
  | apuwrSq1Lo v c => exact writeRegister_next (reg := .sq1Lo) h
  | apuwrSq1Hi v c => exact writeRegister_next (reg := .sq1Hi) h
  | apuwrSq2Ctrl v c => exact writeRegister_next (reg := .sq2Ctrl) h
  | apuwrSq2Ramp v c => exact writeRegister_next (reg := .sq2Ramp) h
  | apuwrSq2Lo v c => exact writeRegister_next (reg := .sq2Lo) h
  | apuwrSq2Hi v c => exact writeRegister_next (reg := .sq2Hi) h
  | apuwrTriCtrl v c => exact writeRegister_next (reg := .triCtrl) h
  | apuwrTriLo v c => exact writeRegister_next (reg := .triLo) h
  | apuwrTriHi v c => exact writeRegister_next (reg := .triHi) h
  | apuwrEnable v c => exact writeRegister_next (reg := .enable) h
  | apuwrIgnored a v c => exact writeRegister_next (reg := .ignored) h
  | _ =>
    refine finish (show perform .sim s (.ok (_, _)) = _ from h) fun r s' hb => ?_
    simp at hb
    exact hb.2.symm

end Sys2Proof.Machine
end

