-- ==== Sys2Proof/Laws/Mixer.lean ====
section
/-!
SUPPORT. The audio path: how many samples a flush makes (42_apu_orchestrator.md R218), what it leaves on an unbounded FIFO,
and what each step of the rounding to binary32 does (R225), in rationals.
-/
namespace Sys2Proof.Machine

/-! ### The samples of a flush -/

@[simp] theorem zeros_length (n : Nat) : (zeros n).length = n := by simp [zeros]

@[simp] theorem pulseFill_length (o : PulseOsc) (t0 : Rat) (rate n : Nat) : (pulseFill o t0 rate n).length = n := by
  unfold pulseFill; split <;> simp

@[simp] theorem triangleFill_length (p : Period) (t0 : Rat) (rate n : Nat) : (triangleFill p t0 rate n).length = n := by
  unfold triangleFill; split <;> simp

theorem mixBuffers_length : ∀ {n : Nat} {a b c d e : List Rat},
    a.length = n → b.length = n → c.length = n → d.length = n → e.length = n → (mixBuffers a b c d e).length = n
  | 0, [], _, _, _, _, _, _, _, _, _ => by simp [mixBuffers]
  | n + 1, _ :: as, _ :: bs, _ :: cs, _ :: ds, _ :: es, h1, h2, h3, h4, h5 => by
    have := mixBuffers_length (n := n) (by simpa using h1 : as.length = n) (by simpa using h2 : bs.length = n)
      (by simpa using h3 : cs.length = n) (by simpa using h4 : ds.length = n) (by simpa using h5 : es.length = n)
    simp [mixBuffers, this]

/-- A flush mixes one value for each sample (42_apu_orchestrator.md R215 step 4). -/
@[simp] theorem mixedValues_length (s : State) (n : Nat) : (mixedValues s n).length = n := by
  unfold mixedValues
  apply mixBuffers_length
  all_goals first | simp | (split <;> simp)

@[simp] theorem flushSamples_length (f : Rat → Sample) (c : Cycle) (s : State) :
    (flushSamples f c s).length = sampleCount s.rate (c.toNat - s.wm.toNat) := by simp [flushSamples]

/-- An attached flush into an unbounded FIFO appends its samples, be there none or some, and drops nothing
(42_apu_orchestrator.md R223, R224). -/
theorem flush_unbounded {f : Rat → Sample} {c : Cycle} {s : State} (h : s.wm ≤ c) (ha : s.att = true)
    (he : s.fexists = true) (hd : s.fifoDepth = none) :
    flush f c s = .ok ([], { s with wm := c, q := s.q ++ flushSamples f c s }) := by
  have hn : ¬ c < s.wm := by bv_omega
  unfold flush
  rw [if_neg hn, if_pos ha]
  split
  · simp [fifoAppend, he, boundQueue, hd, bind, Except.bind]
  · rename_i h0
    have : flushSamples f c s = [] := List.eq_nil_of_length_eq_zero (by rw [flushSamples_length]; omega)
    simp [this]

/-- What an append drops is the front of the queue (44_sample_buffer_fifo.md R274). -/
theorem overflowed_sample (ev : List Event) (q : List Sample) :
    (overflowed ev q).map Departure.sample = match ev with | [.overflow d] => q.take d | _ => [] := by
  have : Departure.sample ∘ Departure.dropped = id := rfl
  unfold overflowed
  split <;> simp [this]

/-! ### Rounding -/

/-- No integer multiple of `den` is nearer to `num` than the rounded one, and of two that are as near the even one is taken. -/
theorem roundHalfEven_spec (num den m : Nat) (hd : 0 < den) :
    |(roundHalfEven num den * den : Int) - num| ≤ |(m * den : Int) - num| ∧
    (|(m * den : Int) - num| = |(roundHalfEven num den * den : Int) - num| →
      m = roundHalfEven num den ∨ roundHalfEven num den % 2 = 0) := by
  have hn : num = num / den * den + num % den := (Nat.div_add_mod' num den).symm
  have hr := Nat.mod_lt num hd
  have hR : roundHalfEven num den = num / den ∧ (2 * (num % den) < den ∨ 2 * (num % den) = den ∧ num / den % 2 = 0) ∨
      roundHalfEven num den = num / den + 1 ∧ (den < 2 * (num % den) ∨ 2 * (num % den) = den ∧ num / den % 2 = 1) := by
    simp only [roundHalfEven]
    split
    · exact .inl ⟨rfl, .inl ‹_›⟩
    · split
      · exact .inr ⟨rfl, .inl ‹_›⟩
      · omega
  generalize roundHalfEven num den = R at *
  generalize num / den = q at *
  generalize num % den = r at *
  have hm : m < q ∧ m * den + den ≤ q * den ∨ m = q ∧ m * den = q * den ∨ m = q + 1 ∧ m * den = q * den + den ∨
      q + 1 < m ∧ q * den + 2 * den ≤ m * den := by
    rcases Nat.lt_trichotomy m q with h | h | h
    · exact .inl ⟨h, by have := Nat.mul_le_mul_right den h; linarith⟩
    · exact .inr (.inl ⟨h, by rw [h]⟩)
    · rcases Nat.lt_or_ge (q + 1) m with h' | h'
      · exact .inr (.inr (.inr ⟨h', by have := Nat.mul_le_mul_right den (show q + 2 ≤ m from h'); linarith⟩))
      · exact .inr (.inr (.inl ⟨by omega, by rw [show m = q + 1 by omega]; ring⟩))
  have hRd : R * den = q * den ∧ R = q ∨ R * den = q * den + den ∧ R = q + 1 := by
    rcases hR with ⟨rfl, _⟩ | ⟨rfl, _⟩
    · exact .inl ⟨rfl, rfl⟩
    · exact .inr ⟨by ring, rfl⟩
  simp only [Int.abs_eq_natAbs, ← Int.natCast_mul]
  generalize m * den = md at *
  generalize R * den = Rd at *
  generalize q * den = qd at *
  omega

/-- The same as a statement about the quotient. -/
theorem roundHalfEven_nearest (num den m : Nat) (hd : 0 < den) :
    |(roundHalfEven num den : Rat) - num / den| ≤ |(m : Rat) - num / den| ∧
    (|(m : Rat) - num / den| = |(roundHalfEven num den : Rat) - num / den| →
      m = roundHalfEven num den ∨ roundHalfEven num den % 2 = 0) := by
  obtain ⟨h1, h2⟩ := roundHalfEven_spec num den m hd
  have hq : (0 : Rat) < den := by exact_mod_cast hd
  have key : ∀ k : Nat, |(k : Rat) - num / den| = ((|(k * den : Int) - num| : Int) : Rat) / den := by
    intro k
    rw [eq_div_iff hq.ne', ← abs_of_pos hq, ← abs_mul, abs_of_pos hq, sub_mul, div_mul_cancel₀ _ hq.ne']
    push_cast; rfl
  rw [key, key]
  refine ⟨by gcongr, fun h => h2 ?_⟩
  rw [div_left_inj' hq.ne'] at h
  exact_mod_cast h

theorem powLe_iff (e : Int) (num den : Nat) (hd : 0 < den) :
    powLe e num den = true ↔ (2 : Rat) ^ e ≤ num / den := by
  have hq : (0 : Rat) < den := by exact_mod_cast hd
  unfold powLe
  split
  · rename_i h
    obtain ⟨k, rfl⟩ := Int.eq_ofNat_of_zero_le h
    simp only [Int.toNat_natCast, decide_eq_true_eq, zpow_natCast]
    rw [le_div_iff₀ hq]
    constructor
    · intro h; have : ((den * 2 ^ k : Nat) : Rat) ≤ num := by exact_mod_cast h
      push_cast at this; linarith
    · intro h; have : ((2 ^ k * den : Nat) : Rat) ≤ num := by push_cast; exact h
      have : 2 ^ k * den ≤ num := by exact_mod_cast this
      linarith
  · rename_i h
    obtain ⟨k, rfl⟩ : ∃ k : Nat, e = -k := ⟨(-e).toNat, by omega⟩
    simp only [neg_neg, Int.toNat_natCast, decide_eq_true_eq, zpow_neg, zpow_natCast]
    rw [le_div_iff₀ hq, inv_mul_le_iff₀ (by positivity)]
    constructor
    · intro h; have : ((den : Nat) : Rat) ≤ (num * 2 ^ k : Nat) := by exact_mod_cast h
      push_cast at this; linarith
    · intro h; have : ((den : Nat) : Rat) ≤ (num * 2 ^ k : Nat) := by push_cast; linarith
      exact_mod_cast this

/-- The binary exponent brackets the quotient. -/
theorem binaryExponent_spec (num den : Nat) (hn : 0 < num) (hd : 0 < den) :
    (2 : Rat) ^ binaryExponent num den ≤ num / den ∧ (num : Rat) / den < 2 ^ (binaryExponent num den + 1) := by
  have hq : (0 : Rat) < den := by exact_mod_cast hd
  have n1 : (2 : Rat) ^ (num.log2 : Int) ≤ num := by
    rw [zpow_natCast]; exact_mod_cast Nat.log2_self_le hn.ne'
  have n2 : (num : Rat) < 2 ^ ((num.log2 : Int) + 1) := by
    have := Nat.lt_log2_self (n := num)
    exact_mod_cast this
  have d1 : (2 : Rat) ^ (den.log2 : Int) ≤ den := by
    rw [zpow_natCast]; exact_mod_cast Nat.log2_self_le hd.ne'
  have d2 : (den : Rat) < 2 ^ ((den.log2 : Int) + 1) := by
    have := Nat.lt_log2_self (n := den)
    exact_mod_cast this
  unfold binaryExponent
  generalize (num.log2 : Int) = a at *
  generalize (den.log2 : Int) = b at *
  have two : (2 : Rat) ≠ 0 := by norm_num
  have up : (num : Rat) / den < 2 ^ (a - b + 1) := by
    rw [div_lt_iff₀ hq]
    calc (num : Rat) < 2 ^ (a + 1) := n2
      _ = 2 ^ (a - b + 1) * 2 ^ b := by rw [← zpow_add₀ two]; congr 1; ring
      _ ≤ 2 ^ (a - b + 1) * den := by gcongr
  have lo : (2 : Rat) ^ (a - b - 1) ≤ num / den := by
    rw [le_div_iff₀ hq]
    calc (2 : Rat) ^ (a - b - 1) * den ≤ 2 ^ (a - b - 1) * 2 ^ (b + 1) := by gcongr
      _ = 2 ^ a := by rw [← zpow_add₀ two]; congr 1; ring
      _ ≤ num := n1
  dsimp only
  split
  · rename_i h; exact ⟨(powLe_iff _ _ _ hd).1 h, up⟩
  · rename_i h
    refine ⟨lo, ?_⟩
    rw [powLe_iff _ _ _ hd, not_le] at h
    rwa [sub_add_cancel]

/-- The significand is a nearest whole number of units `2 ^ (e - 23)`, the even one of two that are as near. -/
theorem significand_nearest (e : Int) (num den m : Nat) (hd : 0 < den) :
    |(significand e num den : Rat) * 2 ^ (e - 23) - num / den| ≤ |(m : Rat) * 2 ^ (e - 23) - num / den| ∧
    (|(m : Rat) * 2 ^ (e - 23) - num / den| = |(significand e num den : Rat) * 2 ^ (e - 23) - num / den| →
      m = significand e num den ∨ significand e num den % 2 = 0) := by
  have hu : (0 : Rat) < 2 ^ (e - 23) := by positivity
  have hq : (0 : Rat) < den := by exact_mod_cast hd
  have key : ∀ (n d : Nat) (x : Rat), (n : Rat) / d * 2 ^ (e - 23) = num / den →
      |x * 2 ^ (e - 23) - num / den| = |x - n / d| * 2 ^ (e - 23) := by
    intro n d x h
    rw [← h, ← sub_mul, abs_mul, abs_of_pos hu]
  have fin : ∀ n d : Nat, 0 < d → (n : Rat) / d * 2 ^ (e - 23) = num / den →
      |(roundHalfEven n d : Rat) * 2 ^ (e - 23) - num / den| ≤ |(m : Rat) * 2 ^ (e - 23) - num / den| ∧
      (|(m : Rat) * 2 ^ (e - 23) - num / den| = |(roundHalfEven n d : Rat) * 2 ^ (e - 23) - num / den| →
        m = roundHalfEven n d ∨ roundHalfEven n d % 2 = 0) := by
    intro n d hd' h
    obtain ⟨h1, h2⟩ := roundHalfEven_nearest n d m hd'
    rw [key n d _ h, key n d _ h]
    exact ⟨by gcongr, fun h => h2 (mul_right_cancel₀ hu.ne' h)⟩
  unfold significand
  split
  · rename_i h
    obtain ⟨k, hk⟩ : ∃ k : Nat, 23 - e = k := ⟨(23 - e).toNat, by omega⟩
    have e1 : e - 23 = -(k : Int) := by omega
    apply fin _ _ hd
    rw [hk, e1]
    push_cast
    rw [zpow_neg, zpow_natCast, Int.toNat_natCast]
    field_simp
  · rename_i h
    obtain ⟨k, hk⟩ : ∃ k : Nat, e - 23 = k := ⟨(e - 23).toNat, by omega⟩
    apply fin
    · positivity
    · rw [hk]
      push_cast
      rw [zpow_natCast, Int.toNat_natCast]
      field_simp

end Sys2Proof.Machine
end

