-- ==== Sys2Proof/Laws/PerInstr.lean ====
section
/-!
SUPPORT. A family of statements about every instruction as syntax: an instruction is issued by the request of its command
row (30_encoding.md R97), so an APUREG row has the word, the side operands and the agent of an `APUWR`.
-/
namespace Sys2Proof.Laws.CommandRow

/-- An instruction's request is its command row's request. -/
def Statement (i : Instr) : Prop := encode i = encode i.command

theorem rd8 (addr : Addr) : Statement (.rd8 addr) := rfl
theorem wr8 (addr : Addr) (v8 : Byte) : Statement (.wr8 addr v8) := rfl
theorem rd16 (addr : Addr) : Statement (.rd16 addr) := rfl
theorem wr16 (addr : Addr) (v16 : Half) : Statement (.wr16 addr v16) := rfl
theorem fetch : Statement (.fetch) := rfl
theorem push8 (v8 : Byte) : Statement (.push8 v8) := rfl
theorem pop8 : Statement (.pop8) := rfl
theorem push16 (v16 : Half) : Statement (.push16 v16) := rfl
theorem pop16 : Statement (.pop16) := rfl
theorem reset : Statement (.reset) := rfl
theorem geta : Statement (.geta) := rfl
theorem seta (v8 : Byte) : Statement (.seta v8) := rfl
theorem getx : Statement (.getx) := rfl
theorem setx (v8 : Byte) : Statement (.setx v8) := rfl
theorem gety : Statement (.gety) := rfl
theorem sety (v8 : Byte) : Statement (.sety v8) := rfl
theorem getsp : Statement (.getsp) := rfl
theorem setsp (v8 : Byte) : Statement (.setsp v8) := rfl
theorem getpc : Statement (.getpc) := rfl
theorem setpc (v16 : Half) : Statement (.setpc v16) := rfl
theorem getp : Statement (.getp) := rfl
theorem setp (v8 : Byte) : Statement (.setp v8) := rfl
theorem getf (f : BitVec 3) : Statement (.getf f) := rfl
theorem setf (f : BitVec 3) (b : Bool) : Statement (.setf f b) := rfl
theorem getcyc : Statement (.getcyc) := rfl
theorem apuinit (attach : Bool) (hostinit : Mask) (c : Cycle) : Statement (.apuinit attach hostinit c) := rfl
theorem apuwr (addr : Addr) (v8 : Byte) (c : Cycle) : Statement (.apuwr addr v8 c) := rfl
theorem toggle (ch : BitVec 3) : Statement (.toggle ch) := rfl
theorem run (c : Cycle) : Statement (.run c) := rfl
theorem fifonew (c : Cycle) : Statement (.fifonew c) := rfl
theorem fifowr (xs : List Sample) : Statement (.fifowr xs) := rfl
theorem fiford (n : BitVec 32) : Statement (.fiford n) := rfl
theorem fifoclr : Statement (.fifoclr) := rfl
theorem apuwrSq1Ctrl (v8 : Byte) (c : Cycle) : Statement (.apuwrSq1Ctrl v8 c) := rfl
theorem apuwrSq1Ramp (v8 : Byte) (c : Cycle) : Statement (.apuwrSq1Ramp v8 c) := rfl
theorem apuwrSq1Lo (v8 : Byte) (c : Cycle) : Statement (.apuwrSq1Lo v8 c) := rfl
theorem apuwrSq1Hi (v8 : Byte) (c : Cycle) : Statement (.apuwrSq1Hi v8 c) := rfl
theorem apuwrSq2Ctrl (v8 : Byte) (c : Cycle) : Statement (.apuwrSq2Ctrl v8 c) := rfl
theorem apuwrSq2Ramp (v8 : Byte) (c : Cycle) : Statement (.apuwrSq2Ramp v8 c) := rfl
theorem apuwrSq2Lo (v8 : Byte) (c : Cycle) : Statement (.apuwrSq2Lo v8 c) := rfl
theorem apuwrSq2Hi (v8 : Byte) (c : Cycle) : Statement (.apuwrSq2Hi v8 c) := rfl
theorem apuwrTriCtrl (v8 : Byte) (c : Cycle) : Statement (.apuwrTriCtrl v8 c) := rfl
theorem apuwrTriLo (v8 : Byte) (c : Cycle) : Statement (.apuwrTriLo v8 c) := rfl
theorem apuwrTriHi (v8 : Byte) (c : Cycle) : Statement (.apuwrTriHi v8 c) := rfl
theorem apuwrEnable (v8 : Byte) (c : Cycle) : Statement (.apuwrEnable v8 c) := rfl
theorem apuwrIgnored (addr : Addr) (v8 : Byte) (c : Cycle) : Statement (.apuwrIgnored addr v8 c) := rfl

end Sys2Proof.Laws.CommandRow
end

