-- ==== Sys2Proof/Laws/Step.lean ====
section
/-!
SUPPORT. What a step that answers a next state has done.
-/
namespace Sys2Proof.Machine

/-- Everything a step can answer with a next state: idle, an illegal word, or the execution of the decoded request. -/
theorem step_next {s t : State} (h : step s = .next t) :
    s.fault = none ∧
    ((s.requests = [] ∧ t = s) ∨
     ∃ r rest, s.requests = r :: rest ∧
       ((∃ e, decode r = .error e ∧ t = ({ s with requests := rest, cur := r } : State).raise .illegal) ∨
        ∃ i, decode r = .ok i ∧ exec i { s with requests := rest, cur := r } = .next t)) := by
  unfold step at h
  split at h
  · cases h
  rename_i hf
  refine ⟨hf, ?_⟩
  unfold nextRequest at h
  cases hr : s.requests with
  | nil =>
    simp only [hr] at h
    exact .inl ⟨rfl, by simpa using h.symm⟩
  | cons r rest =>
    simp only [hr] at h
    refine .inr ⟨r, rest, rfl, ?_⟩
    cases hd : decode r with
    | error e => exact .inl ⟨e, rfl, by simpa [hd] using h.symm⟩
    | ok i => exact .inr ⟨i, rfl, by simpa [hd] using h⟩

end Sys2Proof.Machine
end

