-- ==== Sys2Proof/Machine/Asm.lean ====
section
/-!
DEFINITION. The textual syntax of request sequences (30_encoding.md R99) and the lines of the pseudo-requests (R100): one
line of text to the request it issues. Text is a list of characters. A line that no form of R99 matches is none.
-/
namespace Sys2Proof.Machine

/-- What a line of text means: nothing, one request, or a pseudo-request whose requests depend on the state. -/
inductive AsmLine where
  | blank
  | issue (r : Request)
  | apuwrNow (addr : Addr) (v8 : Byte)
  | frame
  | rebind (hostinit : Mask)
  deriving DecidableEq, Repr

/-- The requests of a line issued in state `s`. -/
def AsmLine.requests : AsmLine → State → List Request
  | .blank, _ => []
  | .issue r, _ => [r]
  | .apuwrNow addr v8, s => Machine.apuwrNow addr v8 s
  | .frame, s => Machine.frame s
  | .rebind h, s => Machine.rebind h s

/-! ### Tokens -/

/-- A finished token in front of the rest, an empty one dropped. -/
def emitToken (tok : List Char) (rest : List (List Char)) : List (List Char) := if tok = [] then rest else tok :: rest

/-- The tokens of a line, in capitals since mnemonics are case-insensitive: a semicolon starts a comment, spaces separate,
and a comma or a bracket is a token of its own. -/
def asmTokens : List Char → List Char → List (List Char)
  | tok, [] => emitToken tok []
  | tok, c :: cs =>
    if c = ';' then emitToken tok []
    else if c = ' ' ∨ c = '\t' then emitToken tok (asmTokens [] cs)
    else if c = ',' ∨ c = '[' ∨ c = ']' then emitToken tok ([c] :: asmTokens [] cs)
    else asmTokens (tok ++ [c.toUpper]) cs

/-! ### Numbers -/

/-- The value of a digit, hexadecimal digits in capitals. -/
def digitValue (c : Char) : Option Nat :=
  if '0' ≤ c ∧ c ≤ '9' then some (c.toNat - '0'.toNat)
  else if 'A' ≤ c ∧ c ≤ 'F' then some (c.toNat - 'A'.toNat + 10)
  else none

/-- The digits after `acc` in the given base. -/
def digitsFrom (base acc : Nat) : List Char → Option Nat
  | [] => some acc
  | c :: cs =>
    match digitValue c with
    | some d => if d < base then digitsFrom base (acc * base + d) cs else none
    | none => none

/-- A nonempty number in the given base, below `2 ^ width`. -/
def asmNumber (base width : Nat) (cs : List Char) : Option (BitVec width) :=
  match cs with
  | [] => none
  | _ =>
    match digitsFrom base 0 cs with
    | some n => if n < 2 ^ width then some (BitVec.ofNat width n) else none
    | none => none

/-- `$aaaa`. -/
def asmAddr : List Char → Option Addr
  | '$' :: cs => asmNumber 16 16 cs
  | _ => none

/-- `#$vv`, an immediate of the given width. -/
def asmImm (width : Nat) : List Char → Option (BitVec width)
  | '#' :: '$' :: cs => asmNumber 16 width cs
  | _ => none

/-- `#b`. -/
def asmBit : List Char → Option Bool
  | ['#', '0'] => some false
  | ['#', '1'] => some true
  | _ => none

/-- `@<c>`: decimal unless it starts with `$`. -/
def asmCycle : List Char → Option Cycle
  | '@' :: '$' :: cs => asmNumber 16 64 cs
  | '@' :: cs => asmNumber 10 64 cs
  | _ => none

/-- `C`, `Z`, `I`, `D`, `V`, `N` for `f` = 0, 1, 2, 3, 6, 7. -/
def asmFlag : List Char → Option (BitVec 3)
  | ['C'] => some 0
  | ['Z'] => some 1
  | ['I'] => some 2
  | ['D'] => some 3
  | ['V'] => some 6
  | ['N'] => some 7
  | _ => none

/-- The channel names, for `ch` = 0 to 4. -/
def asmChannel (tok : List Char) : Option (BitVec 3) :=
  if tok = "SQUARE1".toList then some 0
  else if tok = "SQUARE2".toList then some 1
  else if tok = "TRIANGLE".toList then some 2
  else if tok = "NOISE".toList then some 3
  else if tok = "DMC".toList then some 4
  else none

/-- `host=#$hh`. -/
def asmHost : List Char → Option Mask
  | 'H' :: 'O' :: 'S' :: 'T' :: '=' :: cs => asmImm 5 cs
  | _ => none

/-- `att=0` or `att=1`. -/
def asmAttach : List Char → Option Bool
  | ['A', 'T', 'T', '=', '0'] => some false
  | ['A', 'T', 'T', '=', '1'] => some true
  | _ => none

/-! ### Sample values -/

/-- A decimal fraction after `num / den`, as a numerator and a denominator. -/
def fractionFrom (num den : Nat) : List Char → Option (Nat × Nat)
  | [] => some (num, den)
  | c :: cs =>
    match digitValue c with
    | some d => if d < 10 then fractionFrom (num * 10 + d) (den * 10) cs else none
    | none => none

/-- An unsigned decimal after the integer digits read so far. -/
def decimalFrom (num : Nat) : List Char → Option (Nat × Nat)
  | [] => some (num, 1)
  | '.' :: cs => fractionFrom num 1 cs
  | c :: cs =>
    match digitValue c with
    | some d => if d < 10 then decimalFrom (num * 10 + d) cs else none
    | none => none

/-- One sample: the 32 bits in hexadecimal after `0x`, or a decimal taken to the nearest binary32 as `toF32` takes it
(DESIGN CHOICE, safe, log entry 10). -/
def asmSample : List Char → Option Sample
  | '0' :: 'X' :: cs => asmNumber 16 32 cs
  | '-' :: c :: cs => (decimalFrom 0 (c :: cs)).map fun (num, den) => BitVec.ofNat 32 (2 ^ 31 + magnitudeBits num den)
  | c :: cs => (decimalFrom 0 (c :: cs)).map fun (num, den) => BitVec.ofNat 32 (magnitudeBits num den)
  | [] => none

/-- The samples after the first, up to the closing bracket. -/
def asmSamplesTail : List (List Char) → Option (List Sample)
  | [[']']] => some []
  | [','] :: x :: rest => do
    let v ← asmSample x
    let vs ← asmSamplesTail rest
    some (v :: vs)
  | _ => none

/-- `[x0, x1, ...]`. -/
def asmSamples : List (List Char) → Option (List Sample)
  | [['['], [']']] => some []
  | ['['] :: x :: rest => do
    let v ← asmSample x
    let vs ← asmSamplesTail rest
    some (v :: vs)
  | _ => none

/-! ### Lines -/

/-- The requests with no operands. -/
def asmNullary (m : List Char) : Option Instr :=
  if m = "FETCH".toList then some .fetch
  else if m = "POP8".toList then some .pop8
  else if m = "POP16".toList then some .pop16
  else if m = "RESET".toList then some .reset
  else if m = "GETA".toList then some .geta
  else if m = "GETX".toList then some .getx
  else if m = "GETY".toList then some .gety
  else if m = "GETSP".toList then some .getsp
  else if m = "GETPC".toList then some .getpc
  else if m = "GETP".toList then some .getp
  else if m = "GETCYC".toList then some .getcyc
  else if m = "FIFOCLR".toList then some .fifoclr
  else none

/-- The requests with one operand. -/
def asmUnary (m x : List Char) : Option Instr :=
  if m = "RD8".toList then (asmAddr x).map .rd8
  else if m = "RD16".toList then (asmAddr x).map .rd16
  else if m = "PUSH8".toList then (asmImm 8 x).map .push8
  else if m = "PUSH16".toList then (asmImm 16 x).map .push16
  else if m = "SETA".toList then (asmImm 8 x).map .seta
  else if m = "SETX".toList then (asmImm 8 x).map .setx
  else if m = "SETY".toList then (asmImm 8 x).map .sety
  else if m = "SETSP".toList then (asmImm 8 x).map .setsp
  else if m = "SETP".toList then (asmImm 8 x).map .setp
  else if m = "SETPC".toList then (asmImm 16 x).map .setpc
  else if m = "GETF".toList then (asmFlag x).map .getf
  else if m = "TOGGLE".toList then (asmChannel x).map .toggle
  else if m = "RUN".toList then (asmCycle x).map .run
  else if m = "FIFONEW".toList then (asmNumber 10 64 x).map .fifonew
  else if m = "FIFORD".toList then (asmNumber 10 32 x).map .fiford
  else none

/-- The requests with two operands. -/
def asmBinary (m x y : List Char) : Option Instr :=
  if m = "WR8".toList then do
    let addr ← asmAddr x
    let v8 ← asmImm 8 y
    some (.wr8 addr v8)
  else if m = "WR16".toList then do
    let addr ← asmAddr x
    let v16 ← asmImm 16 y
    some (.wr16 addr v16)
  else if m = "SETF".toList then do
    let f ← asmFlag x
    let b ← asmBit y
    some (.setf f b)
  else none

/-- The requests with three operands. -/
def asmTernary (m x y z : List Char) : Option Instr :=
  if m = "APUINIT".toList then do
    let h ← asmHost x
    let att ← asmAttach y
    let c ← asmCycle z
    some (.apuinit att h c)
  else if m = "APUWR".toList then do
    let addr ← asmAddr x
    let v8 ← asmImm 8 y
    let c ← asmCycle z
    some (.apuwr addr v8 c)
  else none

/-- The instruction of a line's tokens after any agent prefix. -/
def asmInstr : List (List Char) → Option Instr
  | [m] => asmNullary m
  | [m, x] => asmUnary m x
  | [m, x, [','], y] => asmBinary m x y
  | [m, x, [','], y, [','], z] => asmTernary m x y z
  | _ => none

/-- The instruction of a line: `FIFOWR` takes the list form, every other request the operand forms. -/
def asmRequest (toks : List (List Char)) : Option Instr :=
  match toks with
  | m :: rest => if m = "FIFOWR".toList then (asmSamples rest).map .fifowr else asmInstr toks
  | [] => none

/-- A pseudo-request of R100. -/
def asmPseudo : List (List Char) → Option AsmLine
  | [m] => if m = "FRAME".toList then some .frame else none
  | [m, x] => if m = "REBIND".toList then (asmHost x).map .rebind else none
  | [m, x, [','], y] =>
    if m = "APUWRNOW".toList then do
      let addr ← asmAddr x
      let v8 ← asmImm 8 y
      some (.apuwrNow addr v8)
    else none
  | _ => none

/-- The request an instruction issues from the given agent. -/
def issueFrom (agent : Agent) (i : Instr) : AsmLine := .issue { encode i with agent := agent }

/-- One line of text (R99, R100): a line with no agent prefix is issued by SIM, `AUDIO:` and `SIM:` name the agent of a
request. Whether an agent prefix may stand before a pseudo-request the spec leaves open: the reader refuses such a line
(DESIGN CHOICE, safe, log entry 10). -/
def assembleLine (line : List Char) : Option AsmLine :=
  match asmTokens [] line with
  | [] => some .blank
  | m :: rest =>
    if m = "AUDIO:".toList then (asmRequest rest).map (issueFrom .audio)
    else if m = "SIM:".toList then (asmRequest rest).map (issueFrom .sim)
    else
      match asmPseudo (m :: rest) with
      | some p => some p
      | none => (asmRequest (m :: rest)).map (issueFrom .sim)

end Sys2Proof.Machine
end

