-- ==== Sys2Proof/Tests/Slice0.lean ====
section
/-!
SUPPORT. The model's own tests. Expected results are those of spec/95_test_vectors.md or of the worked examples of the rules,
each named in its comment. After them, for every statement with hypotheses, a witness that meets them.
-/
namespace Sys2Proof.Tests

open Sys2Proof.Machine

/-! ### Helpers -/

/-- A request of SIM with a cycle operand. -/
def sim (w : CmdWord) (c : Cycle := 0) : Request := ⟨w, c, 0, [], .sim⟩

/-- A request of AUDIO with a count. -/
def audio (w : CmdWord) (n : BitVec 32 := 0) : Request := ⟨w, 0, n, [], .audio⟩

/-- The next state of an outcome, if it is one. -/
def nextOf : Host.Outcome State Fault Refusal → Option State
  | .next t => some t
  | _ => none

/-- The state after the one request `r`. -/
def after (s : State) (r : Request) : Option State := nextOf (step { s with requests := [r] })

/-- The response to the one request `r`. -/
def response (s : State) (r : Request) : Option Response := (after s r).bind State.resp

/-- The result value and the events of the one request `r`. -/
def value (s : State) (r : Request) : Option (BitVec 64 × List Event) := (response s r).map fun x => (x.r, x.ev)

/-- The code of the fault the one request `r` raises. -/
def faultCode (s : State) (r : Request) : Option Nat := (after s r).bind fun t => t.fault.map fun f => f.kind.code

/-- Power-on with a few RAM bytes. -/
def withRam (ram : Memory) : State := { State.reset with ram := ram }

/-- Power-on, then a FIFO at 44100 samples per second. -/
def withFifo (q : List Sample) : State := { State.reset with fexists := true, rate := 44100, q := q }

/-- The FIFO attached. -/
def attached : State := { withFifo [] with att := true }

/-- A state in which AUDIO is the issuing agent. -/
def audioTurn (s : State) : State := { s with cur := { Request.idle with agent := .audio } }

/-! ### Well-formedness: an ill-formed term for each check -/

theorem test_wellFormed_flag_4 : (Instr.getf 4).wellFormed = false := by decide
theorem test_wellFormed_flag_5 : (Instr.setf 5 true).wellFormed = false := by decide
theorem test_wellFormed_flags :
    ∀ f : BitVec 3, (Instr.getf f).wellFormed = ([0, 1, 2, 3, 6, 7] : List (BitVec 3)).contains f := by decide
theorem test_wellFormed_channel :
    (Instr.toggle 4).wellFormed = true ∧ (Instr.toggle 5).wellFormed = false ∧ (Instr.toggle 7).wellFormed = false := by
  decide
theorem test_wellFormed_ignored :
    (Instr.apuwrIgnored 0x4015 0 0).wellFormed = false ∧ (Instr.apuwrIgnored 0x4009 0 0).wellFormed = true := by decide

/-! ### Decoding: a word of every constructor, written out as op, a, d (30_encoding.md R91, R94) -/

theorem test_decode_bus :
    decode (sim (0x01#8 ++ 0b0000100000000000#16 ++ 0b0000000000000000#16)) = .ok (.rd8 0x0800) ∧
    decode (sim (0x02#8 ++ 0b0100000000000000#16 ++ 0b0000000010000000#16)) = .ok (.wr8 0x4000 0x80) ∧
    decode (sim (0x03#8 ++ 0b1111111111111100#16 ++ 0b0000000000000000#16)) = .ok (.rd16 0xFFFC) ∧
    decode (sim (0x04#8 ++ 0b0000011111111111#16 ++ 0b1010101111001101#16)) = .ok (.wr16 0x07FF 0xABCD) ∧
    decode (sim (0x05#8 ++ 0b0000000000000000#16 ++ 0b0000000000000000#16)) = .ok .fetch := by decide

theorem test_decode_stack :
    decode (sim (0x06#8 ++ 0b0000000000000000#16 ++ 0b0000000010101010#16)) = .ok (.push8 0xAA) ∧
    decode (sim (0x07#8 ++ 0b0000000000000000#16 ++ 0b0000000000000000#16)) = .ok .pop8 ∧
    decode (sim (0x08#8 ++ 0b0000000000000000#16 ++ 0b1011111011101111#16)) = .ok (.push16 0xBEEF) ∧
    decode (sim (0x09#8 ++ 0b0000000000000000#16 ++ 0b0000000000000000#16)) = .ok .pop16 ∧
    decode (sim (0x0A#8 ++ 0b0000000000000000#16 ++ 0b0000000000000000#16)) = .ok .reset := by decide

theorem test_decode_registers :
    decode (sim 0x1000000000) = .ok .geta ∧ decode (sim 0x110000005C) = .ok (.seta 0x5C) ∧
    decode (sim 0x1200000000) = .ok .getx ∧ decode (sim 0x13000000FF) = .ok (.setx 0xFF) ∧
    decode (sim 0x1400000000) = .ok .gety ∧ decode (sim 0x1500000080) = .ok (.sety 0x80) ∧
    decode (sim 0x1600000000) = .ok .getsp ∧ decode (sim 0x1700000000) = .ok (.setsp 0x00) ∧
    decode (sim 0x1800000000) = .ok .getpc ∧ decode (sim 0x1900001234) = .ok (.setpc 0x1234) ∧
    decode (sim 0x1E00000000) = .ok .getcyc := by decide

theorem test_decode_flags :
    decode (sim 0x1A00000000) = .ok .getp ∧ decode (sim 0x1B00000042) = .ok (.setp 0x42) ∧
    decode (sim (0x1C#8 ++ 0b0000000000000010#16 ++ 0b0000000000000000#16)) = .ok (.getf 2) ∧
    decode (sim (0x1D#8 ++ 0b0000000000000111#16 ++ 0b0000000000000001#16)) = .ok (.setf 7 true) := by decide

theorem test_decode_apu :
    decode (sim (0x20#8 ++ 0b0000000000000000#16 ++ 0b0000000100011111#16) 7) = .ok (.apuinit true 0x1F 7) ∧
    decode (sim 0x200000000A 777) = .ok (.apuinit false 0x0A 777) ∧
    decode (sim 0x2140150005 9) = .ok (.apuwr 0x4015 0x05 9) ∧
    decode (sim (0x22#8 ++ 0b0000000000000000#16 ++ 0b0000000000000001#16)) = .ok (.toggle 1) ∧
    decode (sim 0x2300000000 29780) = .ok (.run 29780) := by decide

theorem test_decode_fifo :
    decode (sim 0x3000000000 44100) = .ok (.fifonew 44100) ∧
    decode ⟨0x3100000000, 0, 0, [0x3F800000], .sim⟩ = .ok (.fifowr [0x3F800000]) ∧
    decode (audio 0x3200000000 40) = .ok (.fiford 40) ∧ decode (sim 0x3300000000) = .ok .fifoclr := by decide

/-- The APUREG rows, by their 16-bit addresses (R97). -/
theorem test_decode_apuRows :
    decodeTableWord 16 0x4000 = some (.apuwrSq1Ctrl 0 0) ∧ decodeTableWord 16 0x4001 = some (.apuwrSq1Ramp 0 0) ∧
    decodeTableWord 16 0x4002 = some (.apuwrSq1Lo 0 0) ∧ decodeTableWord 16 0x4003 = some (.apuwrSq1Hi 0 0) ∧
    decodeTableWord 16 0x4004 = some (.apuwrSq2Ctrl 0 0) ∧ decodeTableWord 16 0x4005 = some (.apuwrSq2Ramp 0 0) ∧
    decodeTableWord 16 0x4006 = some (.apuwrSq2Lo 0 0) ∧ decodeTableWord 16 0x4007 = some (.apuwrSq2Hi 0 0) ∧
    decodeTableWord 16 0x4008 = some (.apuwrTriCtrl 0 0) ∧ decodeTableWord 16 0x400A = some (.apuwrTriLo 0 0) ∧
    decodeTableWord 16 0x400B = some (.apuwrTriHi 0 0) ∧ decodeTableWord 16 0x4015 = some (.apuwrEnable 0 0) ∧
    decodeTableWord 16 0x4009 = some (.apuwrIgnored 0x4009 0 0) := by decide

/-- A whole `APUWR` word and the second level of its decode (R97). -/
theorem test_decode_apuRow_of_word :
    (decode (sim (0x21#8 ++ 0b0100000000000011#16 ++ 0b0000000011111001#16) 5)).toOption.map Instr.row =
      some (.apuwrSq1Hi 0xF9 5) := by decide

/-- Illegal words (L2.13, L2.2, R95). -/
theorem test_decode_illegal :
    decode (sim 0x0000000000) = .error .unassignedOpcode ∧ decode (sim 0x0B00000000) = .error .unassignedOpcode ∧
    decode (sim 0x0500010000) = .error .reservedBit ∧ decode (sim 0x0200000142) = .error .reservedBit ∧
    decode (sim 0x1100010000) = .error .reservedBit ∧ decode (sim 0x2000000020) = .error .reservedBit ∧
    decode (sim 0x2000000200) = .error .reservedBit ∧ decode (sim 0x1D00050001) = .error .badFlag ∧
    decode (sim 0x2200000005) = .error .badChannel := by decide

/-- The opcode table's rows do not overlap: no two have a word in common (R95, one meaning per word). -/
theorem test_table_rows_disjoint :
    cmdTable.Pairwise fun r1 r2 => r1.2.1 &&& (r1.2.2 &&& r2.2.2) ≠ r2.2.1 &&& (r1.2.2 &&& r2.2.2) := by decide

/-! ### Fetch: a row's word is the next request -/

theorem test_withFetchWord_command :
    (nextOf (step (State.reset.withFetchWord 40 0x110000005C))).map (fun t => (t.a, t.fault)) = some (0x5C, none) := by
  decide

/-- An APUREG row runs from reset as an `APUWR` of 0: the flush answers and SQUARE1's period stays 0. -/
theorem test_withFetchWord_apuRow :
    (nextOf (step (State.reset.withFetchWord 16 0x4002))).map (fun t => (t.cur.w, t.sq1.period, t.fault)) =
      some (0x2140020000, 0, none) := by decide

/-! ### The bus (L2.2, L1.3) -/

theorem test_rd8_mirror :
    (after (withRam [(0, 0x42)]) (sim 0x0118000000)).map (fun t => (t.resp.map Response.r, t.cycles)) =
      some (some 0x42, 1) := by decide
theorem test_rd8_outside : value State.reset (sim 0x0120000000) = some (0, [.oobRead 0x2000]) := by decide
/-- R141's example. -/
theorem test_wr8_mirror : (after State.reset (sim 0x021800007F)).map State.ram = some [(0, 0x7F)] := by decide
theorem test_wr8_outside :
    (after State.reset (sim 0x0240000080)).map (fun t => (t.ram, t.cycles, t.resp.map Response.ev)) =
      some ([], 1, some [.oobWrite 0x4000 0x80]) := by decide
theorem test_rd16_top : value (withRam [(0, 0x12)]) (sim 0x03FFFF0000) = some (0x1200, [.oobRead 0xFFFF]) := by decide
theorem test_rd16_edge :
    value (withRam [(0, 0xAB), (0x7FF, 0xCD)]) (sim 0x0307FF0000) = some (0xABCD, []) := by decide
theorem test_wr16_edge :
    (after State.reset (sim 0x0407FFABCD)).map (fun t => (t.ram, t.cycles)) =
      some ([(0, 0xAB), (0x7FF, 0xCD)], 2) := by decide
theorem test_wr16_top :
    (after State.reset (sim 0x04FFFF1234)).map (fun t => (t.ram, t.resp.map Response.ev)) =
      some ([(0, 0x12)], some [.oobWrite 0xFFFF 0x34]) := by decide
/-- L2.3. -/
theorem test_fetch :
    (after { withRam [(0x300, 0xEA)] with pc := 0x0300 } (sim 0x0500000000)).map
      (fun t => (t.resp.map Response.r, t.pc, t.cycles)) = some (some 0xEA, 0x0301, 1) := by decide
theorem test_fetch_wraps :
    (after { State.reset with pc := 0xFFFF } (sim 0x0500000000)).map (fun t => (t.resp.map Response.ev, t.pc)) =
      some (some [.oobRead 0xFFFF], 0) := by decide

/-! ### The stack (L2.4) -/

theorem test_push8_wraps :
    (after { State.reset with sp := 0x00 } (sim 0x0600000011)).map (fun t => (t.ram, t.sp, t.cycles)) =
      some ([(0x100, 0x11)], 0xFF, 1) := by decide
theorem test_pop8_wraps :
    (after { withRam [(0x100, 0x11)] with sp := 0xFF } (sim 0x0700000000)).map
      (fun t => (t.resp.map Response.r, t.sp, t.cycles)) = some (some 0x11, 0x00, 1) := by decide
theorem test_push16_wraps :
    (after { State.reset with sp := 0x00 } (sim 0x080000BEEF)).map (fun t => (t.ram, t.sp, t.cycles)) =
      some ([(0x100, 0xBE), (0x1FF, 0xEF)], 0xFE, 2) := by decide
theorem test_pop16_wraps :
    (after { withRam [(0x100, 0xBE), (0x1FF, 0xEF)] with sp := 0xFE } (sim 0x0900000000)).map
      (fun t => (t.resp.map Response.r, t.sp, t.cycles)) = some (some 0xBEEF, 0x00, 2) := by decide
theorem test_reset :
    (after { State.reset with sp := 0x10, a := 1, cycles := 9 } (sim 0x0A00000000)).map
      (fun t => (t.sp, t.a, t.cycles)) = some (0xFD, 1, 9) := by decide

/-! ### Registers and flags (L2.5, L2.1) -/

theorem test_geta : value { State.reset with a := 0x5C } (sim 0x1000000000) = some (0x5C, []) := by decide
theorem test_seta : (after State.reset (sim 0x110000005C)).map State.a = some 0x5C := by decide
theorem test_getx : value { State.reset with x := 0xFF } (sim 0x1200000000) = some (0xFF, []) := by decide
theorem test_setx : (after State.reset (sim 0x13000000FF)).map (fun t => (t.x, t.p.n)) = some (0xFF, false) := by decide
theorem test_gety : value { State.reset with y := 0x80 } (sim 0x1400000000) = some (0x80, []) := by decide
theorem test_sety : (after State.reset (sim 0x1500000080)).map (fun t => (t.y, t.p.n)) = some (0x80, false) := by decide
/-- R156: 0xFD at power-on. -/
theorem test_getsp : value State.reset (sim 0x1600000000) = some (0xFD, []) := by decide
theorem test_setsp : (after State.reset (sim 0x1700000000)).map State.sp = some 0x00 := by decide
theorem test_getpc : value { State.reset with pc := 0x1234 } (sim 0x1800000000) = some (0x1234, []) := by decide
theorem test_setpc : (after State.reset (sim 0x1900001234)).map State.pc = some 0x1234 := by decide
theorem test_getp :
    value { State.reset with p := ⟨true, false, true, false, false, true⟩ } (sim 0x1A00000000) = some (0xA5, []) := by
  decide
theorem test_setp :
    (after State.reset (sim 0x1B00000042)).map (fun t => (t.p, toByte t.p)) =
      some (⟨false, true, false, false, true, false⟩, 0x62) := by decide
theorem test_getf :
    value { State.reset with p := fromByte 0x04 } (sim 0x1C00020000) = some (1, []) ∧
    value { State.reset with p := fromByte 0x01 } (sim 0x1C00010000) = some (0, []) := by decide
theorem test_setf :
    (after { State.reset with p := fromByte 0xEF } (sim 0x1D00000000)).map (fun t => toByte t.p) = some 0xEE := by decide
/-- R162 after three accesses. -/
theorem test_getcyc :
    (after { State.reset with cycles := 3 } (sim 0x1E00000000)).map (fun t => (t.resp.map Response.r, t.cycles)) =
      some (some 3, 3) := by decide
/-- L1.2. -/
theorem test_codec :
    ([0x00, 0xFF, 0x10, 0x20, 0x30, 0xCF, 0xD3, 0x81] : List Byte).map (fun b => toByte (fromByte b)) =
      [0x20, 0xEF, 0x20, 0x20, 0x20, 0xEF, 0xE3, 0xA1] := by decide

/-! ### The APU (L2.6, L2.11) -/

theorem test_apuinit :
    (after { State.reset with sq1 := ⟨5, 2⟩, guest := 0x1F, wm := 3 } (sim 0x200000000A 777)).map
      (fun t => (t.sq1, t.guest, t.host, t.wm, t.att)) = some (⟨0, 0⟩, 0, 0x0A, 777, false) := by decide
theorem test_apuinit_attach :
    faultCode State.reset (sim 0x200000011F) = some 5 ∧
    (after (withFifo []) (sim 0x200000011F)).map (fun t => (t.att, t.fault)) = some (true, none) := by decide
theorem test_apuwr_routes :
    (after State.reset (sim 0x2140000080)).map (fun t => t.sq1.duty) = some 2 ∧
    (after State.reset (sim 0x2140200080 500)).map (fun t => (t.sq1, t.sq2, t.tri, t.guest, t.wm)) =
      some (⟨0, 0⟩, ⟨0, 0⟩, 0, 0, 500) := by decide
theorem test_apuwr_rewind :
    (after { State.reset with wm := 500 } (sim 0x2140000080 100)).map
      (fun t => (t.fault.map fun f => f.kind.code, t.sq1.duty, t.wm)) = some (some 4, 0, 500) := by decide
theorem test_apuwrSq1Ctrl : (nextOf (exec (.apuwrSq1Ctrl 0xC0 0) State.reset)).map (fun t => t.sq1) = some ⟨0, 3⟩ := by decide
theorem test_apuwrSq1Ramp : (nextOf (exec (.apuwrSq1Ramp 0xFF 0) State.reset)).map (fun t => t.sq1) = some ⟨0, 0⟩ := by decide
/-- R202's example. -/
theorem test_apuwrSq1Lo :
    (nextOf (exec (.apuwrSq1Lo 0x64 0) { State.reset with sq1 := ⟨0x700, 1⟩ })).map (fun t => t.sq1) = some ⟨0x764, 1⟩ := by
  decide
/-- R203's example. -/
theorem test_apuwrSq1Hi :
    (nextOf (exec (.apuwrSq1Hi 0xF9 0) { State.reset with sq1 := ⟨0x064, 1⟩ })).map (fun t => t.sq1) = some ⟨0x164, 1⟩ := by
  decide
theorem test_apuwrSq2Ctrl :
    (nextOf (exec (.apuwrSq2Ctrl 0xC0 0) State.reset)).map (fun t => (t.sq1, t.sq2)) = some (⟨0, 0⟩, ⟨0, 3⟩) := by decide
theorem test_apuwrSq2Ramp : (nextOf (exec (.apuwrSq2Ramp 0xFF 0) State.reset)).map (fun t => t.sq2) = some ⟨0, 0⟩ := by decide
theorem test_apuwrSq2Lo : (nextOf (exec (.apuwrSq2Lo 0xFF 0) State.reset)).map (fun t => t.sq2.period) = some 0x0FF := by decide
theorem test_apuwrSq2Hi :
    (nextOf (exec (.apuwrSq2Hi 0xFF 0) { State.reset with sq2 := ⟨0x0FF, 0⟩ })).map (fun t => t.sq2.period) =
      some 0x7FF := by decide
theorem test_apuwrTriCtrl :
    (nextOf (exec (.apuwrTriCtrl 0xFF 9) State.reset)).map (fun t => (t.tri, t.wm)) = some (0, 9) := by decide
theorem test_apuwrTriLo :
    (nextOf (exec (.apuwrTriLo 0x02 0) { State.reset with tri := 0x700 })).map State.tri = some 0x702 := by decide
theorem test_apuwrTriHi :
    (nextOf (exec (.apuwrTriHi 0x00 0) { State.reset with tri := 0x702 })).map State.tri = some 0x002 := by decide
theorem test_apuwrEnable :
    (nextOf (exec (.apuwrEnable 0x05 0) State.reset)).map State.guest = some 0b00101 ∧
    (nextOf (exec (.apuwrEnable 0xFF 0) State.reset)).map State.guest = some 0b11111 := by decide
theorem test_apuwrIgnored :
    (nextOf (exec (.apuwrIgnored 0x4009 0x12 500) State.reset)).map (fun t => (t.guest, t.wm)) = some (0, 500) := by decide
theorem test_toggle :
    (after State.reset (sim 0x2200000001)).map State.host = some 0x1D ∧
    (after State.reset (sim 0x2200000004)).map State.host = some 0x0F := by decide
theorem test_run_unattached : (after State.reset (sim 0x2300000000 1000000)).map (fun t => (t.wm, t.q)) = some (1000000, []) := by
  decide
/-- L2.11: elapsed 41 makes one sample, elapsed 40 none. -/
theorem test_run_one_sample :
    (after { attached with wm := 100 } (sim 0x2300000000 141)).map (fun t => (t.q, t.wm)) = some ([0], 141) ∧
    (after { attached with wm := 100 } (sim 0x2300000000 140)).map (fun t => (t.q, t.wm)) = some ([], 140) := by
  decide +kernel
/-- Program P5, line 9: SQUARE2 and the triangle mixed and rounded. -/
theorem test_run_mixes :
    (after { attached with rate := 48000, guest := 0b00110, sq2 := ⟨100, 1⟩, tri := 2 } (sim 0x2300000000 200)).map State.q =
      some [0x3BF66A55, 0x3C3971F5, 0xB8A23542, 0x3C5759D9, 0x3BBA9A8D] := by decide +kernel
/-- L2.7. -/
theorem test_sampleCount :
    [0, 40, 41, 1616, 29780, 1789773, 3579546].map (sampleCount 44100) = [0, 0, 1, 39, 733, 44100, 88200] ∧
    [40, 81, 29780].map (sampleCount 48000) = [1, 2, 798] := by decide
/-- L2.8: 40 samples of period 100 at duty 0.5, from two window starts; a period of 7 is muted. -/
theorem test_pulse_pattern :
    pulseFill ⟨100, 2⟩ 0 44100 40 = List.replicate 20 1 ++ List.replicate 20 (-1) ∧
    pulseFill ⟨100, 2⟩ (windowStart 808) 44100 40 = [1] ++ List.replicate 19 (-1) ++ List.replicate 20 1 ∧
    pulseFill ⟨7, 2⟩ 0 44100 8 = List.replicate 8 0 := by decide +kernel
/-- L2.8: period 8 is not muted. -/
theorem test_pulse_period_8 :
    pulseFill ⟨8, 2⟩ 0 44100 16 = [1, 1, -1, -1, 1, 1, -1, -1, 1, -1, -1, 1, 1, -1, -1, 1] := by decide +kernel
/-- L2.9. -/
theorem test_triangle :
    triangleFill 2 0 44100 8 = [0, 109009 / 352800, -109009 / 176400, 109009 / 117600, -67391 / 88200, 32111 / 70560,
      -8591 / 58800, -8209 / 50400] ∧
    triangleFill 1 0 44100 3 = [0, 0, 0] := by decide +kernel
/-- L2.10. -/
theorem test_toF32 :
    ([752 / 100000, -752 / 100000, 0, 851 / 100000, 471 / 20000, -471 / 20000, 92766659 / 35280000000] : List Rat).map toF32 =
      [0x3BF66A55, 0xBBF66A55, 0, 0x3C0B6D87, 0x3CC0EBEE, 0xBCC0EBEE, 0x3B2C52B1] := by decide +kernel
/-- Log entry 8, from the IEEE 754 format: ties to even, the subnormal edge, overflow to infinity. -/
theorem test_toF32_edges :
    toF32 (1 + 1 / 2 ^ 24) = 0x3F800000 ∧ toF32 (1 + 3 / 2 ^ 24) = 0x3F800002 ∧ toF32 (2 - 1 / 2 ^ 24) = 0x40000000 ∧
    toF32 (1 / 2 ^ 149) = 1 ∧ toF32 (1 / 2 ^ 150) = 0 ∧ toF32 (2 ^ 128) = 0x7F800000 := by decide +kernel
/-- R225, log entry 8: another conversion takes the place of `toF32`, here a constant one, and one nothing is known of. -/
theorem test_other_conversion :
    ((flush (fun _ => 7) 41 attached).toOption.map fun w => w.2.q) = some [7] ∧
    ((nextOf (exec (.run 41) { attached with conversion := .implementation })).map State.q) = some [Config.implToF32 0] :=
  ⟨by decide +kernel, by with_unfolding_all rfl⟩

/-! ### The FIFO (L2.12) -/

theorem test_fifonew :
    (after State.reset (sim 0x3000000000 4294967295)).map (fun t => (t.fexists, t.rate, t.q)) =
      some (true, 0xFFFFFFFF, []) ∧
    faultCode State.reset (sim 0x3000000000 4294967296) = some 7 ∧ faultCode (withFifo []) (sim 0x3000000000 0) = some 6 := by
  decide
theorem test_fifowr :
    (after (withFifo [0x3F000000]) ⟨0x3100000000, 0, 0, [0x3E800000, 0x7FC00001], .sim⟩).map State.q =
      some [0x3F000000, 0x3E800000, 0x7FC00001] := by decide
theorem test_fifowr_bounded :
    (after { withFifo [1, 2, 3] with fifoDepth := some 4 } ⟨0x3100000000, 0, 0, [4, 5, 6], .sim⟩).map
      (fun t => (t.q, t.resp.map Response.ev)) = some ([3, 4, 5, 6], some [.overflow 2]) := by decide
theorem test_fiford_underrun :
    (after (withFifo [0x3F000000, 0x3E800000]) (audio 0x3200000000 3)).map
      (fun t => (t.resp.map fun r => (r.out, r.ev), t.q)) =
      some (some ([0x3F000000, 0x3E800000, 0], [.underrun 3 2]), []) := by decide
theorem test_fiford_part :
    (after (withFifo [7, 8]) (audio 0x3200000000 1)).map (fun t => (t.resp.map fun r => (r.out, r.ev), t.q)) =
      some (some ([7], []), [8]) ∧
    (after (withFifo [7]) (audio 0x3200000000 0)).map (fun t => (t.resp.map fun r => (r.out, r.ev), t.q)) =
      some (some ([], []), [7]) := by decide
theorem test_fifoclr : (after (withFifo [1, 2, 3]) (sim 0x3300000000)).map (fun t => (t.q, t.rate)) = some ([], 44100) := by
  decide

/-! ### Model faults (L2.13) -/

theorem test_fault_illegal_before_agent :
    faultCode State.reset (audio 0x0B00000000) = some 1 ∧ faultCode State.reset (audio 0x2300000000) = some 2 ∧
    faultCode State.reset ⟨0x3200000000, 0, 1, [], .sim⟩ = some 2 ∧ faultCode State.reset (sim 0x3300000000) = some 5 := by
  decide
/-- The first tick of a word read is void too. -/
theorem test_fault_cycle_overflow :
    (after { State.reset with cycles := 0xFFFFFFFFFFFFFFFE } (sim 0x0300000000)).map
      (fun t => (t.fault.map fun f => f.kind.code, t.cycles, t.resp)) = some (some 3, 0xFFFFFFFFFFFFFFFE, none) := by decide
/-- P6: what `S.FAULT` records. -/
theorem test_fault_record :
    (after { withFifo [] with wm := 100 } (sim 0x2300000000 50)).map State.fault =
      some (some ⟨.rewind, ⟨0x2300000000, 50, 0, [], .sim⟩⟩) := by decide

/-! ### The text of requests (R99, R100; the lines and words of L2 and L3) -/

theorem test_asm_bus :
    assembleLine "WR8 $1800, #$7F".toList = some (.issue (sim 0x021800007F)) ∧
    assembleLine "rd16 $07FF ; a comment".toList = some (.issue (sim 0x0307FF0000)) ∧
    assembleLine "PUSH16 #$BEEF".toList = some (.issue (sim 0x080000BEEF)) := by decide +kernel
theorem test_asm_flags :
    assembleLine "GETF I".toList = some (.issue (sim 0x1C00020000)) ∧
    assembleLine "SETF N, #1".toList = some (.issue (sim 0x1D00070001)) ∧
    assembleLine "SETP #$42".toList = some (.issue (sim 0x1B00000042)) := by decide +kernel
theorem test_asm_apu :
    assembleLine "APUINIT host=#$1F, att=1, @0".toList = some (.issue (sim 0x200000011F)) ∧
    assembleLine "APUWR $4000, #$80, @100".toList = some (.issue (sim 0x2140000080 100)) ∧
    assembleLine "TOGGLE DMC".toList = some (.issue (sim 0x2200000004)) ∧
    assembleLine "RUN @$10".toList = some (.issue (sim 0x2300000000 16)) := by decide +kernel
theorem test_asm_fifo :
    assembleLine "FIFONEW 44100".toList = some (.issue (sim 0x3000000000 44100)) ∧
    assembleLine "AUDIO: FIFORD 40".toList = some (.issue (audio 0x3200000000 40)) ∧
    assembleLine "FIFOWR [0.25, -1.0]".toList = some (.issue ⟨0x3100000000, 0, 0, [0x3E800000, 0xBF800000], .sim⟩) ∧
    assembleLine "FIFOWR []".toList = some (.issue ⟨0x3100000000, 0, 0, [], .sim⟩) := by decide +kernel
theorem test_asm_pseudo :
    assembleLine "REBIND host=#$0A".toList = some (.rebind 0x0A) ∧ assembleLine "FRAME".toList = some .frame ∧
    assembleLine "APUWRNOW $4015, #$05".toList = some (.apuwrNow 0x4015 0x05) ∧
    AsmLine.requests (.rebind 0x0A) { State.reset with cycles := 9 } =
      [sim 0x3300000000, sim 0x1E00000000, sim 0x200000010A 9] := by decide +kernel
theorem test_asm_rejects :
    assembleLine "RD8 #$10".toList = none ∧ assembleLine "SETA #$100".toList = none ∧ assembleLine "JMP $0000".toList = none := by
  decide +kernel

/-! ### Witnesses: states and operands that meet the hypotheses of each statement -/

theorem witness_DecodeOfEncode :
    (Instr.getf 7).wellFormed = true ∧ (Instr.toggle 4).wellFormed = true ∧ (Instr.apuwrIgnored 0x4009 1 2).wellFormed = true ∧
    (Instr.fifowr [1]).wellFormed = true := by decide
theorem witness_DecodedWordIsItsEncoding :
    decode ⟨0x2000000105, 9, 8, [7], .sim⟩ = .ok (.apuinit true 0x05 9) ∧
    decode ⟨0x2140150005, 9, 8, [7], .sim⟩ = .ok (.apuwr 0x4015 0x05 9) ∧
    decode ⟨0x2300000000, 9, 8, [7], .audio⟩ = .ok (.run 9) ∧ decode ⟨0x3000000000, 9, 8, [7], .sim⟩ = .ok (.fifonew 9) ∧
    decode ⟨0x3200000000, 9, 8, [7], .audio⟩ = .ok (.fiford 8) ∧ decode ⟨0x3100000000, 9, 8, [7], .sim⟩ = .ok (.fifowr [7]) := by
  decide
theorem witness_StepRunsDecodedInstruction :
    let s := { State.reset with requests := [sim 0x1000000000, audio 0x3200000000 1] }
    s.fault = none ∧ s.requests = sim 0x1000000000 :: [audio 0x3200000000 1] ∧ decode (sim 0x1000000000) = .ok .geta := by decide
theorem witness_IllegalWordFaults :
    let s := { State.reset with requests := [audio 0x0B00000000] }
    s.fault = none ∧ s.requests = audio 0x0B00000000 :: [] ∧ decode (audio 0x0B00000000) = .error .unassignedOpcode := by decide
theorem witness_IdleStep : State.reset.fault = none ∧ State.reset.requests = [] := by decide
theorem witness_FaultVoidsTheRequest :
    (nextOf (exec .fifoclr State.reset)).bind State.resp = none ∧ ((nextOf (exec .geta State.reset)).bind State.resp).isSome ∧
    (State.reset.raise .rewind).fault = some ⟨.rewind, Request.idle⟩ := by decide
theorem witness_WrongAgentFaults :
    ((Instr.fiford 1).wellFormed = true ∧ State.reset.cur.agent = .sim) ∧
    ((Instr.toggle 4).wellFormed = true ∧ (∀ n, Instr.toggle 4 ≠ .fiford n) ∧ (audioTurn State.reset).cur.agent = .audio) :=
  ⟨by decide, by decide, by simp, by decide⟩
theorem witness_RegisterAndFlagWriters :
    ∃ t, exec (.wr8 0 1) State.reset = .next t ∧ (∀ v, Instr.wr8 0 1 ≠ .seta v) ∧ (∀ v, Instr.wr8 0 1 ≠ .setx v) ∧
      (∀ v, Instr.wr8 0 1 ≠ .sety v) ∧ (∀ v, Instr.wr8 0 1 ≠ .setsp v) ∧ Instr.wr8 0 1 ≠ .reset ∧
      (∀ v, Instr.wr8 0 1 ≠ .push8 v) ∧ Instr.wr8 0 1 ≠ .pop8 ∧ (∀ v, Instr.wr8 0 1 ≠ .push16 v) ∧ Instr.wr8 0 1 ≠ .pop16 ∧
      Instr.wr8 0 1 ≠ .fetch ∧ (∀ v, Instr.wr8 0 1 ≠ .setpc v) ∧ (∀ v, Instr.wr8 0 1 ≠ .setp v) ∧
      (∀ f b, Instr.wr8 0 1 ≠ .setf f b) := ⟨_, rfl, by simp⟩
theorem witness_RamWriters :
    ∃ t, exec .pop16 State.reset = .next t ∧ (∀ a v, Instr.pop16 ≠ .wr8 a v) ∧ (∀ a v, Instr.pop16 ≠ .wr16 a v) ∧
      (∀ v, Instr.pop16 ≠ .push8 v) ∧ (∀ v, Instr.pop16 ≠ .push16 v) := ⟨_, rfl, by simp⟩
theorem witness_TicksPerRequest :
    ((nextOf (exec (.rd8 0) State.reset)).map fun t => (t.resp.isSome, t.cycles)) = some (true, 1) ∧
    ((nextOf (exec .pop16 State.reset)).map fun t => (t.resp.isSome, t.cycles)) = some (true, 2) ∧
    ((nextOf (exec .geta State.reset)).map fun t => (t.resp.isSome, t.cycles)) = some (true, 0) ∧
    ((nextOf (exec .fifoclr State.reset)).map fun t => (t.resp.isSome, t.cycles)) = some (false, 0) := by decide
theorem witness_CycleOverflowFaults :
    (let s := { State.reset with cycles := 0xFFFFFFFFFFFFFFFF }; s.cur.agent = .sim ∧ 2 ^ 64 ≤ s.cycles.toNat + ticksOf (.rd8 0)) ∧
    (let s := { State.reset with cycles := 0xFFFFFFFFFFFFFFFE }; s.cur.agent = .sim ∧ 2 ^ 64 ≤ s.cycles.toNat + ticksOf (.rd16 0)) := by decide
theorem witness_WatermarkAndMaskWriters :
    ∃ t, exec (.toggle 4) State.reset = .next t ∧ (∀ b h c, Instr.toggle 4 ≠ .apuinit b h c) ∧
      (∀ c, (Instr.toggle 4).command ≠ .run c) ∧ (∀ a v c, (Instr.toggle 4).command ≠ .apuwr a v c) :=
  ⟨_, rfl, by simp [Instr.command]⟩
theorem witness_WatermarkAndMaskWriters_flush :
    ∃ t, exec (.apuwrSq1Lo 1 9) State.reset = .next t ∧ (∀ b h c, Instr.apuwrSq1Lo 1 9 ≠ .apuinit b h c) ∧
      (∀ v c, (Instr.apuwrSq1Lo 1 9).command ≠ .apuwr 0x4015 v c) ∧ (∀ ch, Instr.apuwrSq1Lo 1 9 ≠ .toggle ch) :=
  ⟨_, rfl, by simp [Instr.command]⟩
theorem witness_SampleRateNeverChanges :
    ∃ t, step { attached with requests := [sim 0x3300000000] } = .next t ∧
      { attached with requests := [sim 0x3300000000] }.fexists = true := ⟨_, rfl, rfl⟩
theorem witness_AudioTouchesOnlyTheQueue :
    let s := { withFifo [1, 2] with requests := [audio 0x3200000000 1] }
    ∃ t, s.requests = audio 0x3200000000 1 :: [] ∧ (audio 0x3200000000 1).agent = .audio ∧ step s = .next t :=
  ⟨_, rfl, rfl, rfl⟩
theorem witness_PowerOnMeetsInvariant :
    let d := { PowerOn.chosen with ram := [(0, 1), (2047, 255)], fifoDepth := some 1 }
    d.ram.wf = true ∧ ∀ n, d.fifoDepth = some n → 1 ≤ n := ⟨by decide, by intro n h; cases h; decide⟩
theorem witness_StepKeepsInvariant :
    Invariant { attached with requests := [sim 0x0200000042] } ∧
      ∃ t, step { attached with requests := [sim 0x0200000042] } = .next t :=
  ⟨⟨by decide, by decide, by decide, by decide, by intro d h; cases h⟩, ⟨_, rfl⟩⟩
theorem witness_StatusByteRequests : State.reset.cur.agent = .sim := by decide
theorem witness_FlagRequests :
    State.reset.cur.agent = .sim ∧ (3 : BitVec 3) ≠ 4 ∧ (3 : BitVec 3) ≠ 5 ∧ (6 : BitVec 3) ≠ 4 ∧ (6 : BitVec 3) ≠ 5 ∧
    ((4 : BitVec 3) = 4 ∨ (4 : BitVec 3) = 5) ∧ ((5 : BitVec 3) = 4 ∨ (5 : BitVec 3) = 5) := by decide
theorem witness_RegisterGetters : State.reset.cur.agent = .sim := by decide
theorem witness_RegisterSetters : State.reset.cur.agent = .sim := by decide
theorem witness_ResetSetsOnlyTheStackPointer : State.reset.cur.agent = .sim := by decide
theorem witness_ByteRead :
    let s := { State.reset with cycles := 0xFFFFFFFFFFFFFFFE }
    s.cur.agent = .sim ∧ s.cycles.toNat + 1 < 2 ^ 64 ∧ (0x1FFF : Addr).toNat < 0x2000 ∧ ¬ (0x2000 : Addr).toNat < 0x2000 := by
  decide
theorem witness_ByteWrite :
    let s := { withRam [(2047, 1)] with cycles := 0xFFFFFFFFFFFFFFFE }
    s.cur.agent = .sim ∧ s.cycles.toNat + 1 < 2 ^ 64 ∧ s.ram.wf = true ∧ (0x1FFF : Addr).toNat < 0x2000 ∧
      ¬ (0x2000 : Addr).toNat < 0x2000 := by decide
theorem witness_WordRead :
    let s := { State.reset with cycles := 0xFFFFFFFFFFFFFFFD }
    s.cur.agent = .sim ∧ s.cycles.toNat + 2 < 2 ^ 64 ∧ (0x1FFF : Addr).toNat < 0x2000 ∧
      ¬ ((0x1FFF : Addr) + 1).toNat < 0x2000 := by decide
theorem witness_WordWrite :
    let s := { withRam [(2047, 1)] with cycles := 0xFFFFFFFFFFFFFFFD }
    s.cur.agent = .sim ∧ s.cycles.toNat + 2 < 2 ^ 64 ∧ s.ram.wf = true ∧ ¬ (0xFFFF : Addr).toNat < 0x2000 ∧
      ((0xFFFF : Addr) + 1).toNat < 0x2000 := by decide
theorem witness_CodeFetch :
    let s := { State.reset with cycles := 0xFFFFFFFFFFFFFFFE, pc := 0x1FFF }
    s.cur.agent = .sim ∧ s.cycles.toNat + 1 < 2 ^ 64 ∧ s.pc.toNat < 0x2000 := by decide
theorem witness_MirroredReadAfterWrite :
    let s := { State.reset with cycles := 0xFFFFFFFFFFFFFFFD }
    s.cur.agent = .sim ∧ s.cycles.toNat + 2 < 2 ^ 64 ∧ s.ram.wf = true ∧ (0x1FFF : Addr).toNat < 0x2000 ∧
      (0x07FF : Addr).toNat < 0x2000 ∧ (0x1FFF : Addr).toNat % 2048 = (0x07FF : Addr).toNat % 2048 := by decide
theorem witness_PushAndPopByte :
    let s := { State.reset with cycles := 0xFFFFFFFFFFFFFFFE, sp := 0 }
    s.cur.agent = .sim ∧ s.cycles.toNat + 1 < 2 ^ 64 ∧ s.ram.wf = true := by decide
theorem witness_PushAndPopWord :
    let s := { State.reset with cycles := 0xFFFFFFFFFFFFFFFB, sp := 0 }
    s.cur.agent = .sim ∧ s.cycles.toNat + 2 < 2 ^ 64 ∧ s.ram.wf = true ∧ s.cycles.toNat + 4 < 2 ^ 64 := by decide
theorem witness_PushesWrapTheStackPointer :
    let s := { State.reset with sp := 0, requests := [encode (.push8 1), encode (.push8 2)] }
    s.fault = none ∧ s.requests = [1, 2].map (fun v => encode (.push8 v)) ∧
      s.cycles.toNat + ([1, 2] : List Byte).length < 2 ^ 64 := by decide
theorem witness_OrchestratorConstruction :
    State.reset.cur.agent = .sim ∧ (true = true ∧ State.reset.fexists = false) ∧ attached.cur.agent = .sim ∧
      attached.fexists = true := by decide
theorem witness_ApuAddressMap :
    (0x4009 : Addr) ∉ listedApuAddrs ∧ (0x4014 : Addr) ∉ listedApuAddrs ∧ (0x4016 : Addr) ∉ listedApuAddrs ∧
    attached.cur.agent = .sim ∧ attached.wm ≤ 0 ∧ (attached.att = true → attached.fexists = true) := by decide
theorem witness_ApuWriteFlushesFirst :
    let s := { attached with wm := 5 }
    s.cur.agent = .sim ∧ 4 < s.wm ∧ s.wm ≤ 5 ∧ (s.att = true → s.fexists = true) := by decide
theorem witness_DutyWrites :
    attached.cur.agent = .sim ∧ attached.wm ≤ 0 ∧ (attached.att = true → attached.fexists = true) := by decide
theorem witness_PeriodWrites :
    attached.cur.agent = .sim ∧ attached.wm ≤ 41 ∧ (attached.att = true → attached.fexists = true) := by decide
theorem witness_EnableWrite :
    attached.cur.agent = .sim ∧ attached.wm ≤ 41 ∧ (attached.att = true → attached.fexists = true) := by decide
theorem witness_IgnoredWrites :
    State.reset.cur.agent = .sim ∧ State.reset.wm ≤ 0 ∧ (State.reset.att = true → State.reset.fexists = true) := by decide
theorem witness_RewindFaults :
    let s := { State.reset with wm := 1 }
    s.cur.agent = .sim ∧ cycleOperand (.run 0) < s.wm ∧ cycleOperand (.apuwrTriLo 1 0) < s.wm ∧
      (Instr.run 0).command = .run 0 ∧ (Instr.apuwrTriLo 1 0).command = .apuwr 0x400A 1 0 := by decide
theorem witness_ToggleFlipsOneHostBit :
    State.reset.cur.agent = .sim ∧ (4 : BitVec 3).toNat < 5 ∧ 5 ≤ (5 : BitVec 3).toNat := by decide
theorem witness_UnattachedRunMovesTheWatermark :
    State.reset.cur.agent = .sim ∧ State.reset.wm ≤ 0 ∧ State.reset.att = false := by decide
theorem witness_RunAppendsMixedSamples :
    attached.cur.agent = .sim ∧ attached.wm ≤ 41 ∧ attached.att = true ∧ attached.fexists = true ∧ attached.fifoDepth = none ∧
      0 < attached.rate.toNat * ((41 : Cycle).toNat - attached.wm.toNat) / 1789773 ∧ attached.conversion = .nearestEven := by
  decide
theorem witness_RunIntoABoundedFifo :
    let s := { attached with fifoDepth := some 1 }
    Invariant s ∧ s.cur.agent = .sim ∧ s.wm ≤ 1789773 ∧ s.att = true ∧ s.fifoDepth = some 1 :=
  ⟨⟨by decide, by decide, by decide, by decide, by intro d h; cases h; decide⟩, by decide⟩
theorem witness_FlushIsIdempotent :
    attached.cur.agent = .sim ∧ attached.wm ≤ 41 ∧ (attached.att = true → attached.fexists = true) := by decide
theorem witness_CuttingAFlushLosesSamples :
    attached.cur.agent = .sim ∧ attached.wm ≤ 40 ∧ (40 : Cycle) ≤ 80 ∧ attached.att = true ∧ attached.fexists = true ∧
      attached.fifoDepth = none ∧ attached.rate.toNat = 44100 ∧ (40 : Cycle).toNat = attached.wm.toNat + 40 ∧
      (80 : Cycle).toNat = attached.wm.toNat + 80 := by decide
theorem witness_SampleTimesInsideTheWindow :
    (100 : Cycle) ≤ 141 ∧ 0 < sampleCount 44100 ((141 : Cycle).toNat - (100 : Cycle).toNat) := by decide
theorem witness_MixedValuesBounded :
    (1 : Rat) ∈ pulseFill ⟨8, 2⟩ 0 44100 1 ∧ (8 : Period).toNat = 8 ∧ (0 : Rat) ∈ pulseFill ⟨7, 2⟩ 0 44100 1 ∧
    (7 : Period).toNat < 8 ∧ (0 : Rat) ∈ triangleFill 2 0 44100 1 ∧ (0 : Rat) ∈ mixedValues attached 1 := by decide +kernel
theorem witness_TriangleIsContinuous :
    (4 : Rat).floor % 4 = 0 ∧ (5 : Rat).floor % 4 = 1 ∧ (-2 : Rat).floor % 4 = 2 ∧ (7 / 2 : Rat).floor % 4 = 3 ∧ 0 < 44100 := by
  decide +kernel
theorem witness_StoredSampleIsNearest : |(1 : Rat)| ≤ 1 ∧ f32Finite 0x7F7FFFFF = true ∧ f32Finite 0x7F800000 = false :=
  ⟨by norm_num, by decide, by decide⟩
/-- The tie clause: `1 - 3 / 2^25` lies half way between 0x3F7FFFFE and 0x3F7FFFFF. -/
theorem witness_StoredSampleIsNearest_tie :
    let v : Rat := 1 - 3 / 2 ^ 25
    (-1 ≤ v ∧ v ≤ 1) ∧ f32Finite 0x3F7FFFFF = true ∧ f32Value 0x3F7FFFFF - v = v - f32Value (toF32 v) ∧
      v < f32Value 0x3F7FFFFF := by decide +kernel
theorem witness_FrameNeverRewinds :
    let s := { attached with cycles := 41, requests := [encode .getcyc, encode (.run 41)] }
    s.fault = none ∧ s.wm ≤ s.cycles ∧ (s.att = true → s.fexists = true) ∧ s.requests = frame s ++ [] := by decide
theorem witness_FifoCreation :
    attached.cur.agent = .sim ∧ attached.fexists = true ∧ State.reset.cur.agent = .sim ∧ State.reset.fexists = false ∧
      ((0 : Cycle).toNat = 0 ∨ 2 ^ 32 ≤ (0 : Cycle).toNat) ∧ 2 ^ 32 ≤ (0x100000000 : Cycle).toNat ∧ 1 ≤ (1 : Cycle).toNat ∧
      (0xFFFFFFFF : Cycle).toNat < 2 ^ 32 := by decide
theorem witness_FifoAppendAndCapacity :
    State.reset.cur.agent = .sim ∧ State.reset.fexists = false ∧ (withFifo [1]).fexists = true ∧ (withFifo [1]).fifoDepth = none ∧
      { withFifo [1] with fifoDepth := some 1 }.fifoDepth = some 1 := by decide
theorem witness_FifoDrain :
    (audioTurn State.reset).cur.agent = .audio ∧ (audioTurn State.reset).fexists = false ∧
      (audioTurn (withFifo [1])).cur.agent = .audio ∧ (audioTurn (withFifo [1])).fexists = true ∧ 0 < (2 : BitVec 32).toNat := by
  decide
theorem witness_FifoClear :
    State.reset.cur.agent = .sim ∧ State.reset.fexists = false ∧ (withFifo [1]).cur.agent = .sim ∧ (withFifo [1]).fexists = true := by
  decide
/-- The first clause, at depth 2: an overflow of a `FIFOWR`, one of a flush, a drain and a clear. -/
theorem witness_FifoOrderAndProgress_ledger :
    let s := { attached with
      fifoDepth := some 2
      requests := [encode (.fifowr [1, 2, 3]), encode (.run 41), encode (.fiford 1), encode .fifoclr] }
    Invariant s ∧ (runLedger 4 s).map (fun x => (x.1, x.2.1, x.2.2.q)) =
      some ([1, 2, 3, 0], [.dropped 1, .dropped 2, .received 3, .dropped 0], []) :=
  ⟨⟨by decide, by decide, by decide, by decide, by intro d h; cases h; decide⟩, by decide +kernel⟩
/-- The second clause: an existing FIFO, unbounded, and a script with no `FIFOCLR`. -/
theorem witness_FifoOrderAndProgress :
    let script : List Instr := [.fifowr [1, 2], .fiford 3]
    let s := { withFifo [] with requests := script.map encode }
    (∀ i ∈ script, (∃ xs, i = .fifowr xs) ∨ (∃ n, i = .fiford n) ∨ i = .fifoclr) ∧ s.fault = none ∧ s.fexists = true ∧
      s.requests = script.map encode ∧ s.fifoDepth = none ∧ Instr.fifoclr ∉ script :=
  ⟨by simp, rfl, rfl, rfl, rfl, by decide⟩

end Sys2Proof.Tests
end

