-- ==== Sys2Proof/Proofs/Scope.lean ====
section
/-!
PROOFS. The transaction step of 00_scope.md R9: what it does with a waiting request, and with none.
-/
namespace Sys2Proof.Machine

/-- No request is issued from an empty list. -/
theorem nextRequest_of_requests_nil {s : State} (hreq : s.requests = []) : nextRequest s = none := by
  simp only [nextRequest, hreq]

/-- The head of the list is issued: it leaves the list and is latched as the current request. -/
theorem nextRequest_of_requests_cons {s : State} {r : Request} {rest : List Request} (hreq : s.requests = r :: rest) :
    nextRequest s = some (r, { s with requests := rest, cur := r }) := by
  simp only [nextRequest, hreq]

/-- Settles O7: an unfaulted step issues the head of the list, and a decoded instruction is executed from there. -/
theorem stepRunsDecodedInstruction : Obligations.StepRunsDecodedInstruction := by
  intro s r rest i hfault hreq hdec
  have hissue := nextRequest_of_requests_cons hreq
  simp only [step, hfault, hissue, hdec]

/-- Settles O9: an unfaulted step with no request to issue is the idle branch. -/
theorem idleStep : Obligations.IdleStep := by
  intro s hfault hreq
  have hidle := nextRequest_of_requests_nil hreq
  simp only [step, hfault, hidle]

end Sys2Proof.Machine
end

/-!
PROOFS. The state record of 10_state.md: power-on (R42), who writes each field (R21 to R35), the cycle counter's last value
(R30), the wrapping stack pointer (R24), and the invariant every step keeps (R20, R36, R38).
-/
namespace Sys2Proof.Machine

/-! ### What a flushing request leaves: RUN and every row of APUWR -/

/-- The flushing instructions are those whose command row is `RUN` or `APUWR`. -/
theorem flushes_iff (i : Instr) :
    flushes i = true ↔ (∃ c, i.command = .run c) ∨ ∃ a v c, i.command = .apuwr a v c := by
  unfold flushes
  generalize i.command = j
  cases j <;> simp

/-- Only address 0x4015 selects the enable register (30_encoding.md R97). -/
theorem eq_of_apuReg_eq_enable {a : Addr} (h : apuReg a = .enable) : a = 0x4015 := by
  unfold apuReg at h
  split at h <;> cases h
  rfl

/-- The guest mask is written by the enable register's function alone (42_apu_orchestrator.md R211). -/
theorem dispatchReg_guest_of_ne_enable {reg : ApuReg} (h : reg ≠ .enable) (v : Byte) (s : State) :
    (dispatchReg reg v s).guest = s.guest := by
  cases reg with
  | enable => exact absurd rfl h
  | _ => rfl

/-- `RUN` and the rows of `APUWR` have one effect: the flush to the cycle operand, then a register function, which is the
ignored one for `RUN`, and the enable register's only for an `APUWR` to 0x4015. -/
theorem effect_of_flushes {i : Instr} {s s' : State} (hi : flushes i = true) (h : Effect i s s') :
    ∃ ev s1 reg v, flush (convert s.conversion) (cycleOperand i) s = .ok (ev, s1) ∧ s' = dispatchReg reg v s1 ∧
      (reg = .enable → ∃ w c, i.command = .apuwr 0x4015 w c) := by
  cases i with
  | run c =>
    obtain ⟨ev, hf⟩ := h
    exact ⟨ev, s', .ignored, 0, hf, rfl, by simp⟩
  | apuwr a v c =>
    obtain ⟨ev, s1, hf, hs⟩ := h
    exact ⟨ev, s1, apuReg a, v, hf, hs, fun he => ⟨v, c, by rw [eq_of_apuReg_eq_enable he]; rfl⟩⟩
  | apuwrEnable v c =>
    obtain ⟨ev, s1, hf, hs⟩ := h
    exact ⟨ev, s1, .enable, v, hf, hs, fun _ => ⟨v, c, rfl⟩⟩
  | apuwrSq1Ctrl v c | apuwrSq1Ramp v c | apuwrSq1Lo v c | apuwrSq1Hi v c | apuwrSq2Ctrl v c | apuwrSq2Ramp v c
  | apuwrSq2Lo v c | apuwrSq2Hi v c | apuwrTriCtrl v c | apuwrTriLo v c | apuwrTriHi v c | apuwrIgnored _ v c =>
    obtain ⟨ev, s1, hf, hs⟩ := h
    exact ⟨ev, s1, _, v, hf, hs, by simp⟩
  | _ => cases hi

/-- A flush and the register function after it write the oscillators, the guest mask, the watermark and the queue only. -/
theorem flush_dispatchReg_frame {f : Rat → Sample} {c : Cycle} {s s1 : State} {ev : List Event}
    (h : flush f c s = .ok (ev, s1)) (reg : ApuReg) (v : Byte) :
    dispatchReg reg v s1 = { s with
      sq1 := (dispatchReg reg v s1).sq1, sq2 := (dispatchReg reg v s1).sq2, tri := (dispatchReg reg v s1).tri,
      guest := (dispatchReg reg v s1).guest, wm := c, q := s1.q } := by
  have hflush := flush_frame h
  have hreg := dispatchReg_frame reg v s1
  rw [hreg, hflush]

/-- The frame of a flushing instruction. -/
theorem frame_of_flushes {i : Instr} {s s' : State} (hi : flushes i = true) (h : Effect i s s') :
    s' = { s with
      sq1 := s'.sq1, sq2 := s'.sq2, tri := s'.tri, guest := s'.guest, wm := cycleOperand i, q := s'.q } := by
  obtain ⟨ev, s1, reg, v, hflush, rfl, _⟩ := effect_of_flushes hi h
  have hframe := flush_dispatchReg_frame hflush reg v
  rw [hframe]

/-- An append completes exactly when the FIFO exists, and only the queue changes (44_sample_buffer_fifo.md R271). -/
theorem fifoAppend_ok_iff {xs : List Sample} {s s' : State} :
    (∃ ev, fifoAppend xs s = .ok (ev, s')) ↔
      s.fexists = true ∧ s' = { s with q := (boundQueue s.fifoDepth (s.q ++ xs)).1 } := by
  constructor
  · rintro ⟨ev, h⟩
    obtain ⟨hexists, hstate, _⟩ := fifoAppend_ok h
    exact ⟨hexists, hstate⟩
  · rintro ⟨hexists, rfl⟩
    exact ⟨_, by rw [fifoAppend, if_pos hexists]⟩

/-! ### Who writes the registers, the flags and RAM (R21 to R29) -/

/-- Settles O12: a fault and a flush keep every register and flag, and each completed writer changes its own field alone. -/
theorem registerAndFlagWriters : Obligations.RegisterAndFlagWriters := by
  intro i s t hexec
  obtain ⟨k, rfl⟩ | ⟨r, s', rfl, heff⟩ := exec_effect hexec
  · simp
  by_cases hflush : flushes i = true
  · rw [frame_of_flushes hflush heff]
    simp
  cases i with
  | seta | setx | sety | setsp | setpc | setp | reset =>
    obtain rfl := heff
    simp
  | setf | fetch | push8 | pop8 =>
    obtain ⟨_, rfl⟩ := heff
    simp
  | push16 | pop16 =>
    obtain ⟨_, _, rfl⟩ := heff
    simp
  | _ => simp_all [Effect, flushes, Instr.command, fifoAppend_ok_iff]

/-- Settles O13: a fault and a flush keep RAM, and so does every completed instruction but the four writers. -/
theorem ramWriters : Obligations.RamWriters := by
  intro i s t hexec hwr8 hwr16 hpush8 hpush16
  obtain ⟨k, rfl⟩ | ⟨r, s', rfl, heff⟩ := exec_effect hexec
  · simp
  by_cases hflush : flushes i = true
  · rw [frame_of_flushes hflush heff]
    simp
  cases i with
  | wr8 a v => exact absurd rfl (hwr8 a v)
  | wr16 a v => exact absurd rfl (hwr16 a v)
  | push8 v => exact absurd rfl (hpush8 v)
  | push16 v => exact absurd rfl (hpush16 v)
  | _ => simp_all [Effect, flushes, Instr.command, fifoAppend_ok_iff]

/-! ### Who writes the watermark and the masks (R33, R35) -/

/-- Settles O16: a flush raises the watermark to its target and is followed by one register function, of which the enable
register's alone writes the guest mask; of the other instructions only `TOGGLE` writes one of the three fields. -/
theorem watermarkAndMaskWriters : Obligations.WatermarkAndMaskWriters := by
  intro i s t hexec hinit
  obtain ⟨k, rfl⟩ | ⟨r, s', rfl, heff⟩ := exec_effect hexec
  · simp
  by_cases hflush : flushes i = true
  · obtain ⟨ev, s1, reg, v, hok, rfl, henable⟩ := effect_of_flushes hflush heff
    have hle := (flush_ok hok).1
    have hframe := flush_dispatchReg_frame hok reg v
    refine ⟨by rw [hframe]; exact hle, fun hrun hwr => ?_, fun hwr => ?_, fun _ => by rw [hframe]; rfl⟩
    · obtain ⟨c, hc⟩ | ⟨a, w, c, hc⟩ := (flushes_iff i).1 hflush
      · exact absurd hc (hrun c)
      · exact absurd hc (hwr a w c)
    · have hne : reg ≠ .enable := fun he => by
        obtain ⟨w, c, hc⟩ := henable he
        exact hwr w c hc
      rw [State.respond_guest, dispatchReg_guest_of_ne_enable hne, flush_frame hok]
  cases i with
  | apuinit b h c => exact absurd rfl (hinit b h c)
  | _ => simp_all [Effect, flushes, Instr.command, fifoAppend_ok_iff]

/-! ### The last value of the cycle counter (R30) -/

/-- A counter with no room for one tick is at its last value. -/
theorem eq_cycleMax_of_no_room {c : Cycle} (h : 2 ^ 64 ≤ c.toNat + 1) : c = Config.cycleMax := by
  have hlt := c.isLt
  have hmax : Config.cycleMax.toNat = 2 ^ 64 - 1 := rfl
  exact BitVec.eq_of_toNat_eq (by omega)

/-- A counter with no room for two ticks fails at the first or at the second. -/
theorem no_room_for_two {c : Cycle} (h : 2 ^ 64 ≤ c.toNat + 2) :
    c = Config.cycleMax ∨ c ≠ Config.cycleMax ∧ c + 1 = Config.cycleMax := by
  by_cases hc : c = Config.cycleMax
  · exact .inl hc
  · have hroom : c.toNat + 1 < 2 ^ 64 := by
      by_contra hno
      exact hc (eq_cycleMax_of_no_room (by omega))
    have hnext : (c + 1).toNat = c.toNat + 1 := by
      rw [BitVec.toNat_add, show (1 : Cycle).toNat = 1 from rfl, Nat.mod_eq_of_lt hroom]
    exact .inr ⟨hc, eq_cycleMax_of_no_room (by omega)⟩

/-- A push of one byte in closed form. -/
theorem pushByte_eq (v : Byte) (s : State) :
    pushByte v s =
      if s.cycles = Config.cycleMax then .error .cycleOverflow
      else .ok (writeEvents (stackAddr s.sp) v,
        { s with cycles := s.cycles + 1, sp := s.sp - 1, ram := storeByte s.ram (stackAddr s.sp) v }) := by
  rw [pushByte, memWrite_eq]
  split <;> rfl

/-- A request that ticks, whose ticks do not fit the counter, ends in CYCLE_OVERFLOW for SIM. -/
theorem exec_overflow {i : Instr} {s : State} (hsim : s.cur.agent = .sim)
    (hroom : 2 ^ 64 ≤ s.cycles.toNat + ticksOf i) : exec i s = .next (s.raise .cycleOverflow) := by
  have hbody (body : Except FaultKind (Response × State)) (h : body = .error .cycleOverflow) :
      perform .sim s body = .next (s.raise .cycleOverflow) := by rw [h, perform_error hsim]
  cases i with
  | rd8 | wr8 | fetch | push8 | pop8 =>
    apply hbody
    have hlast : s.cycles = Config.cycleMax := eq_cycleMax_of_no_room hroom
    simp only [memRead_eq, memWrite_eq, pushByte_eq, popByte, hlast, if_true, bind, Except.bind]
  | rd16 | wr16 | push16 | pop16 =>
    apply hbody
    obtain hlast | ⟨hfits, hlast⟩ := no_room_for_two hroom
    · simp only [memRead16, memWrite16, memRead_eq, memWrite_eq, pushByte_eq, popByte, hlast, if_true, bind, Except.bind]
    · simp only [memRead16, memWrite16, memRead_eq, memWrite_eq, pushByte_eq, popByte, hfits, hlast, if_true, if_false,
        bind, Except.bind]
  | _ => exact absurd hroom (Nat.not_le.2 s.cycles.isLt)

/-- Settles O15: the request faults at the tick that does not fit, be it the first or the second. -/
theorem cycleOverflowFaults : Obligations.CycleOverflowFaults :=
  fun _ _ hsim hroom => exec_overflow hsim hroom

/-! ### The stack pointer wraps (R24) -/

/-- A push with room in the counter, in closed form. -/
theorem exec_push8 {s : State} (v : Byte) (hsim : s.cur.agent = .sim) (hroom : s.cycles ≠ Config.cycleMax) :
    exec (.push8 v) s = .next (State.respond
      { s with cycles := s.cycles + 1, sp := s.sp - 1, ram := storeByte s.ram (stackAddr s.sp) v }
      (Response.events (writeEvents (stackAddr s.sp) v))) := by
  have hbody := pushByte_eq v s
  rw [if_neg hroom] at hbody
  simp only [exec, execPush8, hbody]
  exact perform_ok hsim

theorem decode_encode_push8 (v : Byte) : decode (encode (.push8 v)) = .ok (.push8 v) := by
  simp [decode, encode, encodeWord, decodeFields, ifReservedZero]

/-- A step that issues a `PUSH8` with room in the counter. -/
theorem step_push8 {s : State} {v : Byte} {rest : List Request} (hfault : s.fault = none)
    (hreq : s.requests = encode (.push8 v) :: rest) (hroom : s.cycles.toNat + 1 < 2 ^ 64) :
    ∃ u, step s = .next u ∧ u.fault = none ∧ u.requests = rest ∧ u.sp = s.sp - 1 ∧
      u.cycles.toNat = s.cycles.toNat + 1 := by
  have hne : s.cycles ≠ Config.cycleMax := fun he => by
    rw [he] at hroom
    exact absurd hroom (by decide)
  have hstep := stepRunsDecodedInstruction s _ _ _ hfault hreq (decode_encode_push8 v)
  have hexec := exec_push8 (s := { s with requests := rest, cur := encode (.push8 v) }) v rfl hne
  exact ⟨_, hstep.trans hexec, hfault, rfl, rfl, BitVec.toNat_add_of_lt hroom⟩

/-- A run whose first step answers a next state goes on from there. -/
theorem run_succ_of_step {M : Host.Core} {s u : M.State} (h : M.step s = .next u) (k : Nat) :
    M.run (k + 1) s = M.run k u := by
  simp only [Host.Core.run, h]

/-- Lowering a byte by one and then by `n` lowers it by `n + 1`, modulo 256. -/
theorem ofInt_pred_sub (b : Byte) (n : Nat) :
    BitVec.ofInt 8 (((b - 1).toNat : Int) - n) = BitVec.ofInt 8 ((b.toNat : Int) - (n + 1 : Nat)) := by
  apply BitVec.eq_of_toNat_eq
  simp only [BitVec.toNat_ofInt, BitVec.toNat_sub, show (1 : Byte).toNat = 1 from rfl]
  omega

/-- Settles O35, by induction on the list of pushes. -/
theorem pushesWrapTheStackPointer : Obligations.PushesWrapTheStackPointer := by
  intro vs
  induction vs with
  | nil =>
    intro s hfault hreq hroom
    exact ⟨s, rfl, hfault, by simp, rfl⟩
  | cons v vs ih =>
    intro s hfault hreq hroom
    rw [List.length_cons] at *
    obtain ⟨u, hstep, hufault, hureq, husp, hucyc⟩ := step_push8 hfault hreq (by omega)
    obtain ⟨t, hrun, htfault, htsp, htcyc⟩ := ih u hufault hureq (by omega)
    refine ⟨t, ?_, htfault, ?_, by omega⟩
    · exact (run_succ_of_step (M := Sys2Proof.core) hstep vs.length).trans hrun
    · rw [htsp, husp, ofInt_pred_sub]

/-! ### Power-on (R42) -/

/-- Settles O1: each field of the power-on record, and APUINIT's own writes are the values it already has. -/
theorem powerOnState : Obligations.PowerOnState :=
  fun _ => ⟨rfl, rfl, rfl, rfl, rfl, rfl, rfl, rfl, rfl, rfl, rfl, rfl, rfl, rfl, rfl, rfl, rfl, rfl, rfl⟩

/-- Settles O2: each field of the chosen power-on, whose RAM lists no byte. -/
theorem resetChosenDraws : Obligations.ResetChosenDraws :=
  ⟨rfl, rfl, rfl, rfl, rfl, Memory.read_nil, rfl, rfl, rfl, reset_requests, rfl⟩

/-- Power-on meets the invariant: no FIFO exists, none is attached, and the empty queue fits every depth. -/
theorem invariant_powerOn {d : PowerOn} (hram : d.ram.wf = true) (hdepth : ∀ n, d.fifoDepth = some n → 1 ≤ n) :
    Invariant (State.powerOn d) where
  ram := hram
  rate := nofun
  attached := nofun
  queue := fun _ => rfl
  depth := fun n hn => ⟨hdepth n hn, Nat.zero_le n⟩

/-- Settles O19: the reset state is a power-on with empty RAM and an unbounded FIFO. -/
theorem powerOnMeetsInvariant : Obligations.PowerOnMeetsInvariant :=
  ⟨fun _ => invariant_powerOn, invariant_powerOn reset_ram_wf nofun⟩

/-! ### Every step keeps the invariant (R20, R36, R38, R274) -/

/-- The invariant speaks of RAM, the FIFO and the attachment only. -/
theorem Invariant.of_frame {s t : State} (h : Invariant s) (hram : t.ram = s.ram) (hexists : t.fexists = s.fexists)
    (hrate : t.rate = s.rate) (hatt : t.att = s.att) (hq : t.q = s.q) (hdepth : t.fifoDepth = s.fifoDepth) :
    Invariant t := by
  constructor
  · rw [hram]; exact h.ram
  · rw [hexists, hrate]; exact h.rate
  · rw [hatt, hexists]; exact h.attached
  · rw [hexists, hq]; exact h.queue
  · rw [hdepth, hq]; exact h.depth

/-- A bus byte write keeps RAM canonical. -/
theorem storeByte_wf {m : Memory} (h : m.wf = true) (addr : Addr) (v : Byte) : (storeByte m addr v).wf = true := by
  unfold storeByte
  split
  · exact Memory.wf_write m _ v h (ramIndex_lt addr)
  · exact h

/-- An append keeps the invariant: a FIFO exists, and a finite depth bounds the queue it leaves. -/
theorem Invariant.after_append {s s' : State} {xs : List Sample} {ev : List Event} (h : Invariant s)
    (happend : fifoAppend xs s = .ok (ev, s')) : Invariant s' := by
  obtain ⟨hexists, rfl, _⟩ := fifoAppend_ok happend
  refine ⟨h.ram, h.rate, h.attached, fun hno => absurd (hexists.symm.trans hno) (by decide), ?_⟩
  intro d hd
  refine ⟨(h.depth d hd).1, ?_⟩
  have hlen := boundQueue_length d (s.q ++ xs)
  rwa [← show s.fifoDepth = some d from hd] at hlen

/-- A flush keeps the invariant: it moves the watermark, which the invariant does not read, and may append. -/
theorem Invariant.after_flush {f : Rat → Sample} {c : Cycle} {s s' : State} {ev : List Event} (h : Invariant s)
    (hflush : flush f c s = .ok (ev, s')) : Invariant s' := by
  obtain ⟨_, ⟨rfl, _⟩ | ⟨_, _, s1, happend, rfl⟩⟩ := flush_ok hflush
  · exact h.of_frame rfl rfl rfl rfl rfl rfl
  · exact (h.after_append happend).of_frame rfl rfl rfl rfl rfl rfl

/-- Removing samples from the front keeps the invariant. -/
theorem Invariant.after_drop {s : State} (h : Invariant s) (k : Nat) : Invariant { s with q := s.q.drop k } := by
  refine ⟨h.ram, h.rate, h.attached, fun hno => ?_, fun d hd => ⟨(h.depth d hd).1, ?_⟩⟩
  · show s.q.drop k = []
    rw [h.queue hno, List.drop_nil]
  · have hlen : (s.q.drop k).length ≤ s.q.length := by simp
    exact hlen.trans (h.depth d hd).2

/-- A nonzero cycle operand below 2^32 is a nonzero rate (44_sample_buffer_fifo.md R270). -/
theorem setWidth_rate_ne_zero {c : Cycle} (hc : c ≠ 0) (hlt : c.toNat < 2 ^ 32) : c.setWidth 32 ≠ 0 := by
  intro h
  have h0 : (c.setWidth 32).toNat = 0 := by rw [h]; rfl
  rw [BitVec.toNat_setWidth, Nat.mod_eq_of_lt hlt] at h0
  exact hc (BitVec.eq_of_toNat_eq h0)

/-- Every completed request keeps the invariant. -/
theorem Invariant.after_effect {i : Instr} {s s' : State} (h : Invariant s) (heff : Effect i s s') : Invariant s' := by
  by_cases hflush : flushes i = true
  · obtain ⟨ev, s1, reg, v, hok, rfl, _⟩ := effect_of_flushes hflush heff
    rw [dispatchReg_frame]
    exact (h.after_flush hok).of_frame rfl rfl rfl rfl rfl rfl
  cases i with
  | wr8 | push8 =>
    obtain ⟨_, rfl⟩ := heff
    exact ⟨storeByte_wf h.ram _ _, h.rate, h.attached, h.queue, h.depth⟩
  | wr16 | push16 =>
    obtain ⟨_, _, rfl⟩ := heff
    exact ⟨storeByte_wf (storeByte_wf h.ram _ _) _ _, h.rate, h.attached, h.queue, h.depth⟩
  | apuinit attach m c =>
    obtain ⟨hattach, rfl⟩ := heff
    exact ⟨h.ram, h.rate, hattach, h.queue, h.depth⟩
  | fifonew c =>
    obtain ⟨_, hc, hlt, rfl⟩ := heff
    exact ⟨h.ram, fun _ => setWidth_rate_ne_zero hc hlt, fun _ => rfl, fun _ => rfl,
      fun d hd => ⟨(h.depth d hd).1, Nat.zero_le d⟩⟩
  | fifowr xs =>
    obtain ⟨ev, happend⟩ := heff
    exact h.after_append happend
  | fiford n =>
    obtain ⟨_, rfl⟩ := heff
    exact h.after_drop _
  | fifoclr =>
    obtain ⟨_, rfl⟩ := heff
    simpa using h.after_drop s.q.length
  | _ =>
    apply h.of_frame <;> simp_all [Effect, flushes, Instr.command]

/-- Settles O20: an idle step changes nothing, issuing a request and recording a fault or a response leave the invariant's
fields, and so the effect of the request decides. -/
theorem stepKeepsInvariant : Obligations.StepKeepsInvariant := by
  intro s t hinv hstep
  obtain ⟨_, ⟨_, rfl⟩ | ⟨r, rest, _, ⟨e, _, rfl⟩ | ⟨i, _, hexec⟩⟩⟩ := step_next hstep
  · exact hinv
  · exact hinv.of_frame rfl rfl rfl rfl rfl rfl
  · have hissued : Invariant { s with requests := rest, cur := r } := hinv.of_frame rfl rfl rfl rfl rfl rfl
    obtain ⟨k, rfl⟩ | ⟨resp, s', rfl, heff⟩ := exec_effect hexec
    · exact hissued.of_frame rfl rfl rfl rfl rfl rfl
    · exact (hissued.after_effect heff).of_frame rfl rfl rfl rfl rfl rfl

end Sys2Proof.Machine

/-!
PROOFS. The one address space of 20_memory.md: the closed form of a bus byte access (R61, R62), and read and fetch after a
write (R73, R77).
-/
namespace Sys2Proof.Machine

/-! ### Bus byte accesses in closed form -/

/-- A counter with room for one tick is not at its last value. -/
theorem ne_cycleMax_of_room {c : Cycle} (h : c.toNat + 1 < 2 ^ 64) : c ≠ Config.cycleMax := by
  rintro rfl
  exact absurd h (by decide)

theorem inWindow_iff (addr : Addr) : inWindow addr = true ↔ addr.toNat < 0x2000 := by
  rw [inWindow, decide_eq_true_iff]
  rfl

theorem exec_rd8 {s : State} (addr : Addr) (hsim : s.cur.agent = .sim) (hroom : s.cycles ≠ Config.cycleMax) :
    exec (.rd8 addr) s = .next (State.respond
      { s with cycles := s.cycles + 1 } (Response.value (busByte s addr) (readEvents addr))) := by
  have hbody := memRead_eq addr s
  rw [if_neg hroom] at hbody
  simp only [exec, execRd8, hbody]
  exact perform_ok hsim

theorem exec_wr8 {s : State} (addr : Addr) (v : Byte) (hsim : s.cur.agent = .sim) (hroom : s.cycles ≠ Config.cycleMax) :
    exec (.wr8 addr v) s = .next (State.respond
      { s with cycles := s.cycles + 1, ram := storeByte s.ram addr v } (Response.events (writeEvents addr v))) := by
  have hbody := memWrite_eq addr v s
  rw [if_neg hroom] at hbody
  simp only [exec, execWr8, hbody]
  exact perform_ok hsim

theorem exec_fetch {s : State} (hsim : s.cur.agent = .sim) (hroom : s.cycles ≠ Config.cycleMax) :
    exec .fetch s = .next (State.respond
      { s with cycles := s.cycles + 1, pc := s.pc + 1 } (Response.value (busByte s s.pc) (readEvents s.pc))) := by
  have hbody := memRead_eq s.pc s
  rw [if_neg hroom] at hbody
  simp only [exec, execFetch, hbody]
  exact perform_ok hsim

/-! ### Reading RAM after a bus byte write -/

/-- A bus byte write replaces the one RAM byte its window address selects, and nothing outside the window. -/
theorem read_storeByte {m : Memory} (hwf : m.wf = true) (addr : Addr) (v : Byte) (k : Nat) :
    (storeByte m addr v).read k = if inWindow addr = true ∧ k = ramIndex addr then v else m.read k := by
  by_cases hin : inWindow addr = true
  · simp [storeByte, hin, Memory.read_write_wf m _ k v hwf]
  · simp [storeByte, hin]

/-- The bus gives the byte written at every window address that selects the same RAM byte (20_memory.md R61, R73). -/
theorem busByte_of_ram_storeByte {m : Memory} {a b : Addr} {v : Byte} {t : State} (hram : t.ram = storeByte m a v)
    (hwf : m.wf = true) (ha : inWindow a = true) (hb : inWindow b = true) (hmirror : ramIndex a = ramIndex b) :
    busByte t b = v := by
  rw [busByte, if_pos hb, hram, read_storeByte hwf, if_pos ⟨ha, hmirror.symm⟩]

/-- Settles O32: the write leaves a state whose bus gives `v` at `b`, and `RD8` and `FETCH` both answer the bus byte. -/
theorem mirroredReadAfterWrite : Obligations.MirroredReadAfterWrite := by
  intro a b v s hsim hcycles hwf ha hb hmirror
  have hroom : s.cycles.toNat + 1 < 2 ^ 64 := by omega
  have hroom' : s.cycles + 1 ≠ Config.cycleMax := by
    apply ne_cycleMax_of_room
    rw [BitVec.toNat_add_of_lt hroom]
    exact hcycles
  have hbin := (inWindow_iff b).2 hb
  have hresp {t : State} (hram : t.ram = storeByte s.ram a v) :
      Response.value (busByte t b) (readEvents b) = { r := v.setWidth 64, out := [], ev := [] } := by
    rw [busByte_of_ram_storeByte hram hwf ((inWindow_iff a).2 ha) hbin hmirror, readEvents, if_pos hbin, Response.value]
  refine ⟨_, _, _, exec_wr8 a v hsim (ne_cycleMax_of_room hroom), exec_rd8 b hsim hroom', ?_, exec_fetch hsim hroom', ?_⟩
  · exact congrArg some (hresp rfl)
  · exact congrArg some (hresp rfl)

end Sys2Proof.Machine

/-!
PROOFS. The encoding of 30_encoding.md: the command word and its reserved bits (R91, R93, R94), the decoder and the encoder as
inverses (R94, R95), the APU register map (R97), the agents (R96), and the illegal word (R95).
-/
namespace Sys2Proof

/-! ### The operand fields of a command word (R93) -/

/-- A 16-bit field whose bits from `k` up are 0 is its low `k` bits, zero-extended. -/
theorem setWidth_lowBits {x : BitVec 16} {k m : Nat} (hkm : k + m = 16) (hzero : x.extractLsb' k m = 0#m) :
    (x.extractLsb' 0 k).setWidth 16 = x := by
  have hhigh (j : Nat) : (x.extractLsb' k m).getLsbD j = false := by rw [hzero, BitVec.getLsbD_zero]
  apply BitVec.eq_of_getLsbD_eq
  intro j hj
  rw [BitVec.getLsbD_setWidth, BitVec.getLsbD_extractLsb', Nat.zero_add]
  by_cases hlow : j < k
  · simp [hlow, hj]
  · have hbit := hhigh (j - k)
    rw [BitVec.getLsbD_extractLsb', Nat.add_sub_cancel' (by omega)] at hbit
    have hm : j - k < m := by omega
    simp_all

theorem ofBool_getLsbD (x : BitVec 16) (k : Nat) : BitVec.ofBool (x.getLsbD k) = x.extractLsb' k 1 := by
  rw [BitVec.getLsbD_eq_extractLsb']
  obtain h | h := BitVec.eq_zero_or_eq_one (x.extractLsb' k 1) <;> simp [h]

theorem setWidth_v8Of {d : BitVec 16} (hzero : d.extractLsb' 8 8 = 0#8) : (v8Of d).setWidth 16 = d :=
  setWidth_lowBits rfl hzero

theorem setWidth_flagOf {a : BitVec 16} (hzero : a.extractLsb' 3 13 = 0#13) : (flagOf a).setWidth 16 = a :=
  setWidth_lowBits rfl hzero

theorem setWidth_channelOf {d : BitVec 16} (hzero : d.extractLsb' 3 13 = 0#13) : (channelOf d).setWidth 16 = d :=
  setWidth_lowBits rfl hzero

theorem setWidth_bitOf {d : BitVec 16} (hzero : d.extractLsb' 1 15 = 0#15) :
    (BitVec.ofBool (bitOf d)).setWidth 16 = d := by
  rw [bitOf, ofBool_getLsbD]
  exact setWidth_lowBits rfl hzero

/-- The `d` field of an `APUINIT` is its two operands between the two reserved ranges. -/
theorem apuinit_fields {d : BitVec 16} (hhigh : d.extractLsb' 9 7 = 0#7) (hmid : d.extractLsb' 5 3 = 0#3) :
    0#7 ++ BitVec.ofBool (attachOf d) ++ 0#3 ++ hostinitOf d = d := by
  have hjoin {k l m n : Nat} (h : l = k + m) : d.extractLsb' l n ++ d.extractLsb' k m = d.extractLsb' k (n + m) :=
    BitVec.extractLsb'_append_extractLsb'_eq_extractLsb' h
  rw [← hhigh, ← hmid, attachOf, ofBool_getLsbD, hostinitOf,
    hjoin (l := 9) (k := 8) rfl, hjoin (l := 8) (k := 5) rfl, hjoin (l := 5) (k := 0) rfl]
  exact BitVec.extractLsb'_eq_self

@[simp] theorem flagOf_setWidth (f : BitVec 3) : flagOf (f.setWidth 16) = f := by
  revert f; decide

@[simp] theorem channelOf_setWidth (ch : BitVec 3) : channelOf (ch.setWidth 16) = ch := by
  revert ch; decide

@[simp] theorem bitOf_setWidth (b : Bool) : bitOf ((BitVec.ofBool b).setWidth 16) = b := by
  revert b; decide

@[simp] theorem attachOf_apuinit (attach : Bool) (h : Mask) :
    attachOf (0#7 ++ BitVec.ofBool attach ++ 0#3 ++ h) = attach := by
  revert attach h; decide

@[simp] theorem hostinitOf_apuinit (attach : Bool) (h : Mask) :
    hostinitOf (0#7 ++ BitVec.ofBool attach ++ 0#3 ++ h) = h := by
  revert attach h; decide

@[simp] theorem reservedBits_setWidth_three (x : BitVec 3) : (x.setWidth 16).extractLsb' 3 13 = 0#13 := by
  revert x; decide

@[simp] theorem reservedBits_setWidth_ofBool (b : Bool) : ((BitVec.ofBool b).setWidth 16).extractLsb' 1 15 = 0#15 := by
  revert b; decide

@[simp] theorem reservedBits_apuinit (attach : Bool) (h : Mask) :
    (0#7 ++ BitVec.ofBool attach ++ 0#3 ++ h).extractLsb' 9 7 = 0#7 ∧
    (0#7 ++ BitVec.ofBool attach ++ 0#3 ++ h).extractLsb' 5 3 = 0#3 := by
  revert attach h; decide

theorem flagOf_addrField (w : CmdWord) : flagOf (addrField w) = w.extractLsb' 16 3 := by
  ext k hk
  have hk16 : k < 16 := by omega
  simp [flagOf, addrField, hk16]

theorem channelOf_dataField (w : CmdWord) : channelOf (dataField w) = w.extractLsb' 0 3 :=
  BitVec.extractLsb'_extractLsb'_of_le (start := 0) (by decide)

/-! ### What each check of the decoder accepts (R95) -/

@[simp] theorem ifReservedZero_eq_ok {zero : Bool} {x : Except IllegalReason Instr} {i : Instr} :
    ifReservedZero zero x = .ok i ↔ zero = true ∧ x = .ok i := by
  cases zero <;> simp [ifReservedZero]

@[simp] theorem checkFlag_eq_ok {f : BitVec 3} {i j : Instr} : checkFlag f i = .ok j ↔ (f ≠ 4 ∧ f ≠ 5) ∧ i = j := by
  by_cases hf : f = 4 ∨ f = 5
  · have hillegal : ¬ (f ≠ 4 ∧ f ≠ 5) := by tauto
    simp only [checkFlag, if_pos hf, hillegal, false_and, reduceCtorEq]
  · have hlegal : f ≠ 4 ∧ f ≠ 5 := by tauto
    simp only [checkFlag, if_neg hf, Except.ok.injEq, and_iff_right hlegal]

@[simp] theorem checkChannel_eq_ok {ch : BitVec 3} {i j : Instr} :
    checkChannel ch i = .ok j ↔ ch.toNat < 5 ∧ i = j := by
  by_cases hch : ch.toNat < 5 <;> simp [checkChannel, hch]

/-! ### The decoder reads exactly the encoder's words -/

/-- The side operand of the instruction's row is the request's (R94). -/
def Instr.TakesOperandFrom (i : Instr) (r : Request) : Prop :=
  match i with
  | .apuinit _ _ c | .apuwr _ _ c | .run c | .fifonew c => c = r.c
  | .fiford n => n = r.n
  | .fifowr xs => xs = r.samples
  | _ => True

/-- The instruction is a well-formed command row with the request's word and side operand: what the decoder should read
from the request (`decode_eq_ok_iff`). -/
structure Instr.IsReadFrom (i : Instr) (r : Request) : Prop where
  wellFormed : i.wellFormed = true
  command : i.command = i
  word : encodeWord i = r.w
  operand : i.TakesOperandFrom r

/-- The decoder accepts only what is read from the request: row by row, the reserved-zero test says that the encoder's
operand fields are the word's. -/
theorem isReadFrom_of_decode {r : Request} {i : Instr} (h : decode r = .ok i) : i.IsReadFrom r := by
  unfold decode at h
  have hw := cmdWord_fields r.w
  generalize opField r.w = op, addrField r.w = a, dataField r.w = d at h hw
  unfold decodeFields at h
  split at h
  -- no row has the opcode
  case h_34 => cases h
  -- WR16, the row with no reserved bit and no legality check
  case h_4 =>
    cases h
    exact ⟨rfl, rfl, hw, trivial⟩
  all_goals
    simp only [ifReservedZero_eq_ok, checkFlag_eq_ok, checkChannel_eq_ok, Except.ok.injEq, Bool.and_eq_true,
      beq_iff_eq] at h
    casesm* _ ∧ _
    subst_vars
    refine ⟨?wellFormed, rfl, ?word, by trivial⟩
    case wellFormed => simp_all [Instr.wellFormed]
    case word =>
      rw [← hw]
      clear hw
      simp [encodeWord, setWidth_v8Of, setWidth_flagOf, setWidth_bitOf, setWidth_channelOf, apuinit_fields, *]

/-- The decoder reads every well-formed command row back from its word: the row is the one of its opcode, and it passes the
row's checks. -/
theorem decode_of_isReadFrom {r : Request} {i : Instr} (h : i.IsReadFrom r) : decode r = .ok i := by
  obtain ⟨hwf, hcommand, hw, hoperand⟩ := h
  rw [decode, ← hw]
  clear hw
  cases i
  all_goals cases hcommand
  all_goals
    cases hoperand
    simp only [encodeWord, opField_cmdWord, addrField_cmdWord, dataField_cmdWord]
  case wr16 => rfl
  case getf | setf =>
    have hlegal := by simpa [Instr.wellFormed] using hwf
    exact ifReservedZero_eq_ok.2 ⟨by simp, checkFlag_eq_ok.2 ⟨by simpa using hlegal, by simp⟩⟩
  case toggle =>
    exact ifReservedZero_eq_ok.2 ⟨by simp, checkChannel_eq_ok.2 ⟨by simpa [Instr.wellFormed] using hwf, by simp⟩⟩
  all_goals exact ifReservedZero_eq_ok.2 ⟨by simp, by simp⟩

/-- The decoder's specification: it reads an instruction from a request exactly when the instruction is a well-formed
command row with the request's word and side operand. -/
theorem decode_eq_ok_iff {r : Request} {i : Instr} : decode r = .ok i ↔ i.IsReadFrom r :=
  ⟨isReadFrom_of_decode, decode_of_isReadFrom⟩

theorem takesOperandFrom_own (i : Instr) (w : CmdWord) (who : Agent) :
    i.TakesOperandFrom ⟨w, cycleOperand i, countOperand i, samplesOperand i, who⟩ := by
  cases i <;> trivial

/-! ### The APU register map (R97) -/

theorem apuReg_of_unlisted {a : Addr} (h : a ∉ listedApuAddrs) : apuReg a = .ignored := by
  unfold apuReg
  split
  case h_13 => rfl
  all_goals exact absurd (by decide) h

theorem apuRow_of_unlisted {a : Addr} (h : a ∉ listedApuAddrs) (v : Byte) (c : Cycle) :
    apuRow a v c = .apuwrIgnored a v c := by
  rw [apuRow, apuReg_of_unlisted h]

/-! ### The command row of an instruction (R97) -/

theorem encode_command (i : Instr) : encode i.command = encode i := by
  cases i <;> rfl

theorem command_command (i : Instr) : i.command.command = i.command := by
  cases i <;> rfl

theorem wellFormed_command {i : Instr} (h : i.wellFormed = true) : i.command.wellFormed = true := by
  cases i with
  | getf | setf | toggle => exact h
  | _ => rfl

theorem command_row {i : Instr} (h : i.wellFormed = true) : i.command.row = i.row := by
  cases i with
  | apuwrIgnored a v c => exact apuRow_of_unlisted (by simpa [Instr.wellFormed] using h) v c
  | _ => rfl

/-- The request an instruction encodes to is one its command row is read from. -/
theorem isReadFrom_encode {i : Instr} (h : i.wellFormed = true) : i.command.IsReadFrom (encode i) where
  wellFormed := wellFormed_command h
  command := command_command i
  word := congrArg Request.w (encode_command i)
  operand := by
    rw [← encode_command]
    exact takesOperandFrom_own ..

/-- Settles O3: the command row is read from the encoded request, and an unlisted address selects the ignored row. -/
theorem decodeOfEncode : Obligations.DecodeOfEncode :=
  fun _ hwf => ⟨decode_of_isReadFrom (isReadFrom_encode hwf), command_row hwf⟩

/-- Settles O4: an accepted instruction is read from the request, hence also from the one that holds its own operands. -/
theorem decodedWordIsItsEncoding : Obligations.DecodedWordIsItsEncoding := by
  intro r i hdec
  obtain ⟨hwf, hcommand, hword, hoperand⟩ := isReadFrom_of_decode hdec
  refine ⟨hwf, hcommand, hword, ?_, ?_, ?_, ?_, ?_, ?_, fun who =>
    decode_of_isReadFrom ⟨hwf, hcommand, hword, takesOperandFrom_own i r.w who⟩⟩
  all_goals
    intros
    subst i
    exact hoperand

/-! ### The opcode table (R94, spec/opcode_table.json) -/

theorem cmdWord_inj {op op' : BitVec 8} {a a' d d' : BitVec 16} :
    cmdWord op a d = cmdWord op' a' d' ↔ op = op' ∧ a = a' ∧ d = d' := by
  constructor
  · intro h
    exact ⟨by simpa using congrArg opField h, by simpa using congrArg addrField h, by simpa using congrArg dataField h⟩
  · rintro ⟨rfl, rfl, rfl⟩
    rfl

theorem cmdWord_and (op op' : BitVec 8) (a a' d d' : BitVec 16) :
    cmdWord op a d &&& cmdWord op' a' d' = cmdWord (op &&& op') (a &&& a') (d &&& d') := by
  calc (op ++ a) ++ d &&& (op' ++ a') ++ d' = ((op ++ a) &&& (op' ++ a')) ++ (d &&& d') := BitVec.and_append
    _ = ((op &&& op') ++ (a &&& a')) ++ (d &&& d') := by rw [BitVec.and_append]

/-- The mask of `len` bits of a 16-bit field from bit `start` up. -/
def fieldMask (start len : Nat) : BitVec 16 := (BitVec.allOnes len).setWidth 16 <<< start

theorem getLsbD_fieldMask (start len j : Nat) :
    (fieldMask start len).getLsbD j = decide (j < 16 ∧ start ≤ j ∧ j < start + len) := by
  simp only [fieldMask, BitVec.getLsbD_shiftLeft, BitVec.getLsbD_setWidth, BitVec.getLsbD_allOnes]
  grind

/-- A masked range of a field is 0 when its bits are: the table's test of reserved bits against the decoder's. -/
@[simp] theorem and_fieldMask_eq_zero {x : BitVec 16} {start len : Nat} :
    x &&& fieldMask start len = 0#16 ↔ x.extractLsb' start len = 0#len := by
  rw [BitVec.eq_of_getLsbD_eq_iff, BitVec.eq_of_getLsbD_eq_iff]
  simp only [BitVec.getLsbD_and, getLsbD_fieldMask, BitVec.getLsbD_extractLsb', BitVec.getLsbD_zero]
  constructor
  · intro h j hj
    have hbit := h (start + j)
    have hout := x.getLsbD_of_ge (start + j)
    grind
  · intro h j hj
    have hbit := h (j - start)
    grind

/-- The command rows by opcode, with the reserved bits of the `a` and `d` fields: `cmdTable` cut into the three fields
(`cmdTable_eq_reservedTable`). -/
def reservedTable : List (BitVec 8 × BitVec 16 × BitVec 16) :=
  let all := fieldMask 0 16
  let high := fieldMask 8 8
  [(0x01, 0, all), (0x02, 0, high), (0x03, 0, all), (0x04, 0, 0), (0x05, all, all), (0x06, all, high),
   (0x07, all, all), (0x08, all, 0), (0x09, all, all), (0x0A, all, all),
   (0x10, all, all), (0x11, all, high), (0x12, all, all), (0x13, all, high), (0x14, all, all), (0x15, all, high),
   (0x16, all, all), (0x17, all, high), (0x18, all, all), (0x19, all, 0), (0x1A, all, all), (0x1B, all, high),
   (0x1C, fieldMask 3 13, all), (0x1D, fieldMask 3 13, fieldMask 1 15), (0x1E, all, all),
   (0x20, all, fieldMask 9 7 ||| fieldMask 5 3), (0x21, 0, high), (0x22, all, fieldMask 3 13), (0x23, all, all),
   (0x30, all, all), (0x31, all, all), (0x32, all, all), (0x33, all, all)]

theorem cmdTable_eq_reservedTable :
    cmdTable.map Prod.snd = reservedTable.map fun row => (cmdWord row.1 0 0, cmdWord 0xFF row.2.1 row.2.2) := by
  decide

/-- An opcode has at most one row. -/
theorem mem_reservedTable_iff {op : BitVec 8} {m : BitVec 16 × BitVec 16} :
    (op, m) ∈ reservedTable ↔ reservedTable.lookup op = some m := by
  constructor
  · have hrows : ∀ row ∈ reservedTable, reservedTable.lookup row.1 = some row.2 := by simp [reservedTable, List.lookup]
    exact hrows (op, m)
  · intro h
    obtain ⟨before, after, hsplit, _⟩ := List.lookup_eq_some_iff.1 h
    simp [hsplit]

/-- A word matches a row of the opcode table when its opcode has a row and the row's reserved bits are 0. -/
theorem matches_cmdTable_iff (w : CmdWord) :
    (∃ row ∈ cmdTable, w &&& row.2.2 = row.2.1) ↔
      ∃ m, reservedTable.lookup (opField w) = some m ∧ addrField w &&& m.1 = 0 ∧ dataField w &&& m.2 = 0 := by
  have hop (op : BitVec 8) : op &&& 0xFF = op := BitVec.and_allOnes
  calc (∃ row ∈ cmdTable, w &&& row.2.2 = row.2.1)
      ↔ ∃ p ∈ cmdTable.map Prod.snd, w &&& p.2 = p.1 := by
        simp only [List.mem_map, exists_exists_and_eq_and]
    _ ↔ ∃ row ∈ reservedTable, cmdWord (opField w) (addrField w) (dataField w) &&& cmdWord 0xFF row.2.1 row.2.2 =
          cmdWord row.1 0 0 := by
        simp only [cmdTable_eq_reservedTable, cmdWord_fields, List.mem_map, exists_exists_and_eq_and]
    _ ↔ ∃ row ∈ reservedTable, opField w = row.1 ∧ addrField w &&& row.2.1 = 0 ∧ dataField w &&& row.2.2 = 0 := by
        simp only [cmdWord_and, cmdWord_inj, hop]
    _ ↔ _ := by simp [← mem_reservedTable_iff]

/-- The decoder accepts exactly the fields whose opcode has a row, with the row's reserved bits 0, a flag selector that is
legal and a channel that is. -/
theorem decodeFields_accepts_iff (op : BitVec 8) (a d : BitVec 16) (r : Request) :
    (∃ i, decodeFields op a d r = .ok i) ↔
      (∃ m, reservedTable.lookup op = some m ∧ a &&& m.1 = 0 ∧ d &&& m.2 = 0) ∧
      (op = 0x1C ∨ op = 0x1D → flagOf a ≠ 4 ∧ flagOf a ≠ 5) ∧ (op = 0x22 → (channelOf d).toNat < 5) := by
  unfold decodeFields
  split
  -- no row has the opcode
  case h_34 =>
    have hnone : reservedTable.lookup op = none := by simp_all [reservedTable]
    simp [hnone]
  all_goals simp [reservedTable, List.lookup, BitVec.and_or_distrib_left, and_assoc]

/-- Settles O5: the table's masks are the reserved-zero tests, and the two legality checks are those of R95. -/
theorem decoderAcceptsExactlyTheTable : Obligations.DecoderAcceptsExactlyTheTable := by
  intro r
  rw [matches_cmdTable_iff, ← flagOf_addrField, ← channelOf_dataField]
  exact decodeFields_accepts_iff ..

/-- Settles O6: the decoder's answers to the listed words. -/
theorem specWordsDecode : Obligations.SpecWordsDecode := by
  unfold Obligations.SpecWordsDecode
  decide

end Sys2Proof

namespace Sys2Proof.Machine

/-! ### Illegal words and wrong agents (R95, R96) -/

/-- Settles O8: an unfaulted step that issues an illegal word raises ILLEGAL before any instruction is executed. -/
theorem illegalWordFaults : Obligations.IllegalWordFaults := by
  intro s r rest e hfault hreq hdec
  have hissue := nextRequest_of_requests_cons hreq
  simp only [step, hfault, hissue, hdec, State.raise, Option.or]

/-- A well-formed instruction is performed for the agent its row names. -/
theorem exec_eq_perform {i : Instr} (h : i.wellFormed = true) (s : State) :
    ∃ body, exec i s = perform (agentOf i) s body := by
  cases i with
  | getf f | setf f b =>
    have hlegal : ¬ noFlag f = true := by simpa [Instr.wellFormed, noFlag] using h
    exact ⟨_, if_neg hlegal⟩
  | toggle ch =>
    have hlegal : ¬ noChannel ch = true := by simpa [Instr.wellFormed, noChannel] using h
    exact ⟨_, if_neg hlegal⟩
  | reset | geta | seta | getx | setx | gety | sety | getsp | setsp | getpc | setpc | getp | setp | getcyc =>
    exact ⟨.ok (_, _), rfl⟩
  | _ => exact ⟨_, rfl⟩

/-- AUDIO is the agent of `FIFORD` alone. -/
theorem agentOf_of_ne_fiford {i : Instr} (h : ∀ n, i ≠ .fiford n) : agentOf i = .sim := by
  cases i with
  | fiford n => exact absurd rfl (h n)
  | _ => rfl

/-- Settles O11: in both cases the issuing agent is not the one the instruction is performed for. -/
theorem wrongAgentFaults : Obligations.WrongAgentFaults := by
  intro i s hwf hwrong
  obtain ⟨body, hexec⟩ := exec_eq_perform hwf s
  have hagent : s.cur.agent ≠ agentOf i := by
    obtain ⟨⟨n, rfl⟩, hsim⟩ | ⟨hrow, haudio⟩ := hwrong
    · simp [hsim, agentOf]
    · simp [haudio, agentOf_of_ne_fiford hrow]
  exact hexec.trans (perform_wrong_agent hagent body)

/-! ### Executing an APUWR (R97, R192) -/

/-- An `APUWR` is executed as the row its address selects. -/
theorem exec_apuRow (a : Addr) (v : Byte) (c : Cycle) (s : State) :
    exec (.apuwr a v c) s = exec (apuRow a v c) s := by
  change writeRegister (dispatchReg (apuReg a) v) c s = _
  unfold apuRow
  cases apuReg a <;> rfl

/-- An `APUWR` whose flush can be made is answered, with the watermark at its cycle operand. -/
theorem exec_apuwr_answers (a : Addr) (v : Byte) {c : Cycle} {s : State} (hsim : s.cur.agent = .sim) (hwm : s.wm ≤ c)
    (hfifo : s.att = true → s.fexists = true) :
    ∃ t, exec (.apuwr a v c) s = .next t ∧ t.resp ≠ none ∧ t.wm = c := by
  obtain ⟨ev, q, hflush⟩ := flush_total (convert s.conversion) hwm hfifo
  refine ⟨(dispatchReg (apuReg a) v { s with wm := c, q := q }).respond (Response.events ev), ?_, by simp, ?_⟩
  · simp only [exec, execApuwr, writeRegister, hflush, bind, Except.bind, perform_ok hsim]
  · rw [State.respond_wm, dispatchReg_frame]

/-- Settles O37: the map row by row, and a register function touches neither the queue nor the response. -/
theorem apuAddressMap : Obligations.ApuAddressMap := by
  refine ⟨fun v c => ?_, fun a v c hlist => apuRow_of_unlisted hlist v c, fun a v c s => ⟨exec_apuRow a v c s, ?_, ?_,
    exec_apuwr_answers a v⟩⟩
  · exact ⟨rfl, rfl, rfl, rfl, rfl, rfl, rfl, rfl, rfl, rfl, rfl, rfl⟩
  · rw [dispatchReg_frame]
  · rw [dispatchReg_frame]

end Sys2Proof.Machine

/-!
PROOFS. The status flag codec of 40_status_flag_codec.md: the bit table of `to_byte` (R120), both round trips (R122), and
`GETP` and `SETP` (R123, R124).
-/
namespace Sys2Proof.Machine

/-! ### The bits of a status byte (R120) -/

/-- The bits of a byte, from bit 0 up. -/
def bitsOf (b : Byte) : List Bool := (List.range 8).map b.getLsbD

/-- Bit `j` of a byte is entry `j` of its bits; beyond the byte both read as 0. -/
theorem getD_bitsOf (b : Byte) (j : Nat) : (bitsOf b).getD j false = b.getLsbD j := by
  obtain hj | hj := Nat.lt_or_ge j 8
  · simp [bitsOf, hj]
  · simp [bitsOf, hj]

/-- A byte is determined by its bits. -/
theorem eq_of_bitsOf_eq {b b' : Byte} (h : bitsOf b = bitsOf b') : b = b' :=
  BitVec.eq_of_getLsbD_eq fun j _ => by rw [← getD_bitsOf, h, getD_bitsOf]

/-- The bit table of R120, with bit 4 fixed at 0 and bit 5 at 1: a finite fact about the 64 flag records. -/
theorem bitsOf_toByte (p : Flags) : bitsOf (toByte p) = [p.c, p.z, p.i, p.d, false, true, p.v, p.n] := by
  obtain ⟨c, z, i, d, v, n⟩ := p
  revert c z i d v n
  decide

/-- The bit table, one bit at a time. -/
theorem getLsbD_toByte (p : Flags) (j : Nat) :
    (toByte p).getLsbD j = [p.c, p.z, p.i, p.d, false, true, p.v, p.n].getD j false := by
  rw [← bitsOf_toByte, getD_bitsOf]

/-- The masks of R122 clear bit 4, set bit 5 and keep the other six. -/
theorem bitsOf_fixedBits (b : Byte) :
    bitsOf ((b &&& 0xCF) ||| 0x20) = [b.getLsbD 0, b.getLsbD 1, b.getLsbD 2, b.getLsbD 3, false, true, b.getLsbD 6,
      b.getLsbD 7] := by
  simp [bitsOf, List.range_succ]

/-! ### The round trips (R122) -/

/-- `from_byte` reads the six flags at the places where `to_byte` puts them. -/
theorem fromByte_toByte (p : Flags) : fromByte (toByte p) = p := by
  simp only [fromByte, getLsbD_toByte]
  rfl

/-- A byte that passes through the flags keeps its six flag bits and takes the two fixed ones. -/
theorem toByte_fromByte (b : Byte) : toByte (fromByte b) = (b &&& 0xCF) ||| 0x20 :=
  eq_of_bitsOf_eq ((bitsOf_toByte (fromByte b)).trans (bitsOf_fixedBits b).symm)

/-- Settles O21: the bit table of `to_byte`, `from_byte` by its definition, and the two round trips. -/
theorem flagCodecLaws : Obligations.FlagCodecLaws :=
  ⟨bitsOf_toByte, fun _ => rfl, toByte_fromByte, fromByte_toByte⟩

/-! ### Reading and writing the status byte (R123, R124) -/

/-- Settles O22: each body answers at once, `GETP` from the state itself and `SETP` from the state with the flags unpacked. -/
theorem statusByteRequests : Obligations.StatusByteRequests := by
  intro v s hsim
  exact ⟨perform_ok hsim, perform_ok hsim⟩

end Sys2Proof.Machine

/-!
PROOFS. The bus and the register file of 41_bus_and_regfile.md: register access (R149 to R162), byte and word bus accesses
and code fetch (R140 to R144), and the stack (R145 to R148).
-/
namespace Sys2Proof.Machine

/-! ### Registers and RESET (R149 to R159, R162) -/

/-- Settles O24: the body of each getter answers at once, on the state itself. -/
theorem registerGetters : Obligations.RegisterGetters := by
  intro s hsim
  refine ⟨perform_ok hsim, perform_ok hsim, perform_ok hsim, perform_ok hsim, perform_ok hsim, ?_⟩
  have hcycles : s.cycles.setWidth 64 = s.cycles := BitVec.setWidth_eq s.cycles
  rw [exec, execGetcyc, perform_ok hsim, Response.value, hcycles, State.respond]

/-- Settles O25: the body of each setter answers at once, on the state with its register replaced. -/
theorem registerSetters : Obligations.RegisterSetters := by
  intro v w s hsim
  exact ⟨perform_ok hsim, perform_ok hsim, perform_ok hsim, perform_ok hsim, perform_ok hsim⟩

/-- Settles O26: the body of `RESET` answers at once, on the state with SP at its power-on value. -/
theorem resetSetsOnlyTheStackPointer : Obligations.ResetSetsOnlyTheStackPointer :=
  fun _ hsim => perform_ok hsim

/-! ### One flag of the status byte (R160, R161) -/

theorem noFlag_iff (f : BitVec 3) : noFlag f = true ↔ f = 4 ∨ f = 5 := by
  simp [noFlag]

/-- The six flag bits of a byte pass through the flags unchanged (40_status_flag_codec.md R122). -/
theorem getLsbD_toByte_fromByte (b : Byte) {g : BitVec 3} (h4 : g ≠ 4) (h5 : g ≠ 5) :
    (toByte (fromByte b)).getLsbD g.toNat = b.getLsbD g.toNat := by
  have hmask : ∀ g : BitVec 3, g ≠ 4 → g ≠ 5 →
      (0xCF : Byte).getLsbD g.toNat = true ∧ (0x20 : Byte).getLsbD g.toNat = false := by decide
  obtain ⟨hkept, hclear⟩ := hmask g h4 h5
  rw [toByte_fromByte, BitVec.getLsbD_or, BitVec.getLsbD_and, hkept, hclear, Bool.and_true, Bool.or_false]

/-- Clearing bit `i` of a byte and or-ing `b` into its place sets that bit to `b` and keeps the others. -/
theorem getLsbD_replaceBit (x : Byte) {i j : Nat} (hj : j < 8) (b : Bool) :
    ((x &&& ~~~(1#8 <<< i)) ||| ((BitVec.ofBool b).setWidth 8 <<< i)).getLsbD j = if j = i then b else x.getLsbD j := by
  by_cases hji : j = i
  · subst hji
    simp [hj]
  · rw [if_neg hji]
    by_cases hlt : j < i
    · simp [hj, hlt]
    · have hdiff : j - i ≠ 0 := by omega
      simp [hj, hlt, hdiff]

/-- `SETF` replaces the flag at its selector and keeps the five others (R161). -/
theorem getLsbD_toByte_setFlagBit (p : Flags) (f : BitVec 3) (b : Bool) {g : BitVec 3} (h4 : g ≠ 4) (h5 : g ≠ 5) :
    (toByte (setFlagBit p f b)).getLsbD g.toNat = if g = f then b else (toByte p).getLsbD g.toNat := by
  rw [setFlagBit, getLsbD_toByte_fromByte _ h4 h5, getLsbD_replaceBit _ g.isLt]
  simp only [BitVec.toNat_inj]

/-- A flag as a 64-bit result (R160). -/
theorem setWidth_ofBool (b : Bool) : (BitVec.ofBool b).setWidth 64 = if b then 1 else 0 := by
  cases b <;> rfl

/-- Settles O23: a legal selector reaches the body, `GETF`'s on the state itself and `SETF`'s on the state with one flag
replaced; the selectors 4 and 5 raise ILLEGAL before it. -/
theorem flagRequests : Obligations.FlagRequests := by
  intro f b s
  refine ⟨fun hsim h4 h5 => ?_, fun hno => ?_⟩
  · have hlegal : ¬ noFlag f = true := fun h => ((noFlag_iff f).1 h).elim h4 h5
    refine ⟨?_, setFlagBit s.p f b, ?_, fun g hg4 hg5 => getLsbD_toByte_setFlagBit s.p f b hg4 hg5⟩
    · rw [exec, execGetf, if_neg hlegal, perform_ok hsim, Response.value, setWidth_ofBool, State.respond, flagBit]
    · exact (if_neg hlegal).trans (perform_ok hsim)
  · have hillegal : noFlag f = true := (noFlag_iff f).2 hno
    exact ⟨if_pos hillegal, if_pos hillegal⟩

/-! ### A bus byte by its numeric address (20_memory.md R61, R62) -/

theorem busByte_eq (s : State) (addr : Addr) :
    busByte s addr = if addr.toNat < 0x2000 then s.ram.read (addr.toNat % 2048) else 0 := by
  simp only [busByte, inWindow_iff, ramIndex, Config.ramSize]

theorem readEvents_eq (addr : Addr) : readEvents addr = if addr.toNat < 0x2000 then [] else [.oobRead addr] := by
  simp only [readEvents, inWindow_iff]

theorem writeEvents_eq (addr : Addr) (v : Byte) :
    writeEvents addr v = if addr.toNat < 0x2000 then [] else [.oobWrite addr v] := by
  simp only [writeEvents, inWindow_iff]

/-- `read_storeByte` by the numeric address. -/
theorem read_storeByte_eq {m : Memory} (hwf : m.wf = true) (addr : Addr) (v : Byte) (k : Nat) :
    (storeByte m addr v).read k = if addr.toNat < 0x2000 ∧ k = addr.toNat % 2048 then v else m.read k := by
  simp only [read_storeByte hwf, inWindow_iff, ramIndex, Config.ramSize]

/-- The response of a byte read: the RAM byte in the window, 0 with an event outside it (R140). -/
theorem response_busByte (s : State) (addr : Addr) :
    Response.value (busByte s addr) (readEvents addr) =
      if addr.toNat < 0x2000 then { r := (s.ram.read (addr.toNat % 2048)).setWidth 64, out := [], ev := [] }
      else { r := 0, out := [], ev := [.oobRead addr] } := by
  rw [busByte_eq, readEvents_eq]
  split <;> rfl

/-! ### Byte accesses and code fetch (R140, R141, R144) -/

/-- Adding a number to a word, modulo its width. -/
theorem ofNat_toNat_add {w : Nat} (b : BitVec w) (k : Nat) : BitVec.ofNat w (b.toNat + k) = b + BitVec.ofNat w k := by
  rw [BitVec.ofNat_add, BitVec.ofNat_toNat, BitVec.setWidth_eq]

/-- Settles O27: the closed form of `RD8`, with its address as a number. -/
theorem byteRead : Obligations.ByteRead := by
  intro addr s hsim hroom
  rw [exec_rd8 addr hsim (ne_cycleMax_of_room hroom), response_busByte]
  rfl

/-- Settles O28: the closed form of `WR8`, with its address as a number. -/
theorem byteWrite : Obligations.ByteWrite := by
  intro addr v s hsim hroom hwf
  refine ⟨storeByte s.ram addr v, ?_, read_storeByte_eq hwf addr v⟩
  rw [exec_wr8 addr v hsim (ne_cycleMax_of_room hroom), writeEvents_eq]
  rfl

/-- Settles O31: the closed form of `FETCH`, with PC as a number. -/
theorem codeFetch : Obligations.CodeFetch := by
  intro s hsim hroom
  rw [exec_fetch hsim (ne_cycleMax_of_room hroom), response_busByte, ofNat_toNat_add]
  rfl

/-! ### Word accesses (R142, R143) -/

/-- With room for two ticks neither is at the counter's last value. -/
theorem ne_cycleMax_of_room_for_two {c : Cycle} (h : c.toNat + 2 < 2 ^ 64) :
    c ≠ Config.cycleMax ∧ c + 1 ≠ Config.cycleMax := by
  have hone : c.toNat + 1 < 2 ^ 64 := by omega
  refine ⟨ne_cycleMax_of_room hone, ne_cycleMax_of_room ?_⟩
  rw [BitVec.toNat_add_of_lt hone]
  exact h

theorem add_one_add_one (c : Cycle) : c + 1 + 1 = c + 2 := BitVec.add_assoc c 1 1

/-- The number of a little-endian word. -/
theorem setWidth_append (hi lo : Byte) : (hi ++ lo).setWidth 64 = BitVec.ofNat 64 (lo.toNat + 256 * hi.toNat) := by
  have hword : (hi ++ lo).toNat = lo.toNat + 256 * hi.toNat := by
    rw [BitVec.toNat_append, ← Nat.shiftLeft_add_eq_or_of_lt lo.isLt, Nat.shiftLeft_eq]
    omega
  rw [← BitVec.ofNat_toNat, hword]

theorem exec_rd16 {s : State} (addr : Addr) (hsim : s.cur.agent = .sim) (hroom : s.cycles.toNat + 2 < 2 ^ 64) :
    exec (.rd16 addr) s = .next (State.respond { s with cycles := s.cycles + 2 }
      (Response.value (busByte s (addr + 1) ++ busByte s addr) (readEvents addr ++ readEvents (addr + 1)))) := by
  obtain ⟨hfirst, hsecond⟩ := ne_cycleMax_of_room_for_two hroom
  simp only [exec, execRd16, memRead16, memRead_eq, hfirst, hsecond, if_false, bind, Except.bind, add_one_add_one]
  exact perform_ok hsim

theorem exec_wr16 {s : State} (addr : Addr) (v : Half) (hsim : s.cur.agent = .sim)
    (hroom : s.cycles.toNat + 2 < 2 ^ 64) :
    exec (.wr16 addr v) s = .next (State.respond
      { s with
        cycles := s.cycles + 2
        ram := storeByte (storeByte s.ram addr (v.extractLsb' 0 8)) (addr + 1) (v.extractLsb' 8 8) }
      (Response.events (writeEvents addr (v.extractLsb' 0 8) ++ writeEvents (addr + 1) (v.extractLsb' 8 8)))) := by
  obtain ⟨hfirst, hsecond⟩ := ne_cycleMax_of_room_for_two hroom
  simp only [exec, execWr16, memWrite16, memWrite_eq, hfirst, hsecond, if_false, bind, Except.bind, add_one_add_one]
  exact perform_ok hsim

/-- Settles O29: the closed form of `RD16`; a byte outside the window counts as 0. -/
theorem wordRead : Obligations.WordRead := by
  intro addr s hsim hroom
  have hnat (a : Addr) :
      (busByte s a).toNat = if a.toNat < 0x2000 then (s.ram.read (a.toNat % 2048)).toNat else 0 := by
    rw [busByte_eq, apply_ite BitVec.toNat]
    rfl
  rw [exec_rd16 addr hsim hroom, Response.value, setWidth_append, hnat, hnat, readEvents_eq, readEvents_eq]
  rfl

/-- Settles O30: the closed form of `WR16`; the byte stored second, at `addr + 1`, is the one read back first. -/
theorem wordWrite : Obligations.WordWrite := by
  intro addr v s hsim hroom hwf
  refine ⟨storeByte (storeByte s.ram addr (v.extractLsb' 0 8)) (addr + 1) (v.extractLsb' 8 8), ?_, fun k => ?_⟩
  · rw [exec_wr16 addr v hsim hroom, writeEvents_eq, writeEvents_eq]
    rfl
  · rw [read_storeByte_eq (storeByte_wf hwf addr _), read_storeByte_eq hwf]

/-! ### The stack (R145 to R148) -/

theorem readEvents_stackAddr (sp : Byte) : readEvents (stackAddr sp) = [] := if_pos (stackAddr_inWindow sp)

theorem writeEvents_stackAddr (sp v : Byte) : writeEvents (stackAddr sp) v = [] := if_pos (stackAddr_inWindow sp)

theorem busByte_stackAddr (s : State) (sp : Byte) : busByte s (stackAddr sp) = s.ram.read (0x100 + sp.toNat) := by
  rw [busByte, if_pos (stackAddr_inWindow sp), ramIndex_stackAddr]

/-- A push replaces the RAM byte of its slot and no other. -/
theorem read_storeByte_stackAddr {m : Memory} (hwf : m.wf = true) (sp v : Byte) (k : Nat) :
    (storeByte m (stackAddr sp) v).read k = if k = 0x100 + sp.toNat then v else m.read k := by
  simp only [read_storeByte hwf, stackAddr_inWindow, true_and, ramIndex_stackAddr]

/-- A pop of one byte in closed form. -/
theorem popByte_eq (s : State) :
    popByte s =
      if s.cycles = Config.cycleMax then .error .cycleOverflow
      else .ok (s.ram.read (0x100 + (s.sp + 1).toNat), [], { s with cycles := s.cycles + 1, sp := s.sp + 1 }) := by
  rw [popByte, memRead_eq, busByte_stackAddr, readEvents_stackAddr]

theorem exec_pop8 {s : State} (hsim : s.cur.agent = .sim) (hroom : s.cycles ≠ Config.cycleMax) :
    exec .pop8 s = .next (State.respond { s with cycles := s.cycles + 1, sp := s.sp + 1 }
      (Response.value (s.ram.read (0x100 + (s.sp + 1).toNat)) [])) := by
  have hbody := popByte_eq s
  rw [if_neg hroom] at hbody
  simp only [exec, execPop8, hbody]
  exact perform_ok hsim

/-- RAM after a `PUSH16` at the stack pointer `sp`: the high byte, then the low byte one slot below (R147). -/
def storeStackWord (m : Memory) (sp : Byte) (v : Half) : Memory :=
  storeByte (storeByte m (stackAddr sp) (v.extractLsb' 8 8)) (stackAddr (sp - 1)) (v.extractLsb' 0 8)

theorem read_storeStackWord {m : Memory} (hwf : m.wf = true) (sp : Byte) (v : Half) (k : Nat) :
    (storeStackWord m sp v).read k =
      if k = 0x100 + (sp - 1).toNat then v.extractLsb' 0 8
      else if k = 0x100 + sp.toNat then v.extractLsb' 8 8
      else m.read k := by
  rw [storeStackWord, read_storeByte_stackAddr (storeByte_wf hwf _ _), read_storeByte_stackAddr hwf]

theorem exec_push16 {s : State} (v : Half) (hsim : s.cur.agent = .sim) (hroom : s.cycles.toNat + 2 < 2 ^ 64) :
    exec (.push16 v) s = .next (State.respond
      { s with
        cycles := s.cycles + 2
        sp := s.sp - 1 - 1
        ram := storeStackWord s.ram s.sp v }
      Response.empty) := by
  obtain ⟨hfirst, hsecond⟩ := ne_cycleMax_of_room_for_two hroom
  simp only [exec, execPush16, pushByte_eq, hfirst, hsecond, if_false, bind, Except.bind, writeEvents_stackAddr,
    add_one_add_one]
  exact perform_ok hsim

theorem exec_pop16 {s : State} (hsim : s.cur.agent = .sim) (hroom : s.cycles.toNat + 2 < 2 ^ 64) :
    exec .pop16 s = .next (State.respond { s with cycles := s.cycles + 2, sp := s.sp + 1 + 1 }
      (Response.value (s.ram.read (0x100 + (s.sp + 1 + 1).toNat) ++ s.ram.read (0x100 + (s.sp + 1).toNat)) [])) := by
  obtain ⟨hfirst, hsecond⟩ := ne_cycleMax_of_room_for_two hroom
  simp only [exec, execPop16, popByte_eq, hfirst, hsecond, if_false, bind, Except.bind, add_one_add_one]
  exact perform_ok hsim

/-- A push leaves SP lower by one, modulo 2^8. -/
theorem pred_eq_ofNat (sp : Byte) : sp - 1 = BitVec.ofNat 8 (sp.toNat + 255) := by
  rw [ofNat_toNat_add, BitVec.sub_eq_add_neg]
  rfl

/-- Settles O33: the closed forms of `PUSH8` and `POP8`, with SP as a number modulo 2^8. -/
theorem pushAndPopByte : Obligations.PushAndPopByte := by
  intro v s hsim hroom
  have hne := ne_cycleMax_of_room hroom
  refine ⟨fun hwf => ⟨storeByte s.ram (stackAddr s.sp) v, ?_, read_storeByte_stackAddr hwf s.sp v⟩, ?_⟩
  · rw [exec_push8 v hsim hne, writeEvents_stackAddr, pred_eq_ofNat]
    rfl
  · rw [exec_pop8 hsim hne, ofNat_toNat_add, BitVec.toNat_add]
    rfl

/-- Two pushes leave SP lower by two, modulo 2^8. -/
theorem pred_pred_eq_ofNat (sp : Byte) : sp - 1 - 1 = BitVec.ofNat 8 (sp.toNat + 254) := by
  rw [ofNat_toNat_add, BitVec.sub_eq_add_neg, BitVec.sub_eq_add_neg, BitVec.add_assoc]
  rfl

/-- Two pops leave SP higher by two, modulo 2^8. -/
theorem succ_succ_eq_ofNat (sp : Byte) : sp + 1 + 1 = BitVec.ofNat 8 (sp.toNat + 2) := by
  rw [ofNat_toNat_add, BitVec.add_assoc]
  rfl

/-- `POP16` after `PUSH16` restores the word and SP (R148). -/
theorem pop16_after_push16 (v : Half) {s : State} (hsim : s.cur.agent = .sim) (hroom : s.cycles.toNat + 4 < 2 ^ 64)
    (hwf : s.ram.wf = true) :
    ∃ t u, exec (.push16 v) s = .next t ∧ exec .pop16 t = .next u ∧ u.resp = some (Response.value v []) ∧ u.sp = s.sp := by
  have htwo : s.cycles.toNat + 2 < 2 ^ 64 := by omega
  have hsp : s.sp - 1 - 1 + 1 = s.sp - 1 := BitVec.sub_add_cancel ..
  have hsp' : s.sp - 1 + 1 = s.sp := BitVec.sub_add_cancel ..
  have hslots : 0x100 + s.sp.toNat ≠ 0x100 + (s.sp - 1).toNat := by bv_omega
  have hword : v.extractLsb' 8 8 ++ v.extractLsb' 0 8 = v := BitVec.extractLsb'_append_extractLsb'
  refine ⟨_, _, exec_push16 v hsim htwo, exec_pop16 hsim ?_, ?_, ?_⟩
  · show (s.cycles + 2).toNat + 2 < 2 ^ 64
    rw [BitVec.toNat_add_of_lt htwo]
    exact hroom
  · simp only [State.respond_resp, State.respond_ram, State.respond_sp, hsp, hsp', read_storeStackWord hwf, if_true,
      if_neg hslots, hword]
  · show s.sp - 1 - 1 + 1 + 1 = s.sp
    rw [hsp, hsp']

/-- Settles O34: the closed forms of `PUSH16` and `POP16`, with SP as a number modulo 2^8, and one after the other. -/
theorem pushAndPopWord : Obligations.PushAndPopWord := by
  intro v s hsim hroom
  refine ⟨fun hwf => ⟨storeStackWord s.ram s.sp v, ?_, fun k => ?_⟩, ?_,
    fun hwf hfour => pop16_after_push16 v hsim hfour hwf⟩
  · rw [exec_push16 v hsim hroom, pred_pred_eq_ofNat]
    rfl
  · rw [read_storeStackWord hwf, pred_eq_ofNat]
    rfl
  · rw [exec_pop16 hsim hroom, Response.value, setWidth_append, succ_succ_eq_ofNat]
    rfl

end Sys2Proof.Machine

/-!
PROOFS. The APU orchestrator of 42_apu_orchestrator.md: construction (R190), register writes (R191 to R212), channel toggles
(R213), and the flush as a request: REWIND (R216), no attachment (R217), its cuts (R227, R228), a bounded FIFO (R223).
-/
namespace Sys2Proof.Machine

/-! ### Construction (R190) -/

/-- Settles O36: the body of `APUINIT` branches on the one pair of operand and state that has no FIFO to attach. -/
theorem orchestratorConstruction : Obligations.OrchestratorConstruction := by
  intro attach h c s hsim
  refine ⟨fun ⟨hattach, hno⟩ => ?_, fun hok => ?_⟩
  · have hbad : (attach && !s.fexists) = true := by rw [hattach, hno]; rfl
    rw [exec, execApuinit, if_pos hbad]
    exact perform_error hsim
  · have hgood : ¬ (attach && !s.fexists) = true := by obtain h | h := hok <;> simp [h]
    rw [exec, execApuinit, if_neg hgood]
    exact perform_ok hsim

/-! ### The flush, and the register function after it (R191, R215, R216) -/

theorem sampleCount_zero (rate : BitVec 32) : sampleCount rate 0 = 0 := Nat.zero_div _

theorem flush_rewind (f : Rat → Sample) {c : Cycle} {s : State} (h : c < s.wm) : flush f c s = .error .rewind :=
  if_pos h

/-- An unattached flush moves the watermark and nothing else (R217). -/
theorem flush_unattached (f : Rat → Sample) {c : Cycle} {s : State} (hwm : s.wm ≤ c) (hatt : s.att = false) :
    flush f c s = .ok ([], { s with wm := c }) := by
  have hno : ¬ c < s.wm := BitVec.not_lt.2 hwm
  rw [flush, if_neg hno, hatt]
  rfl

/-- A flush to the watermark itself makes no sample (R228). -/
theorem flush_to_watermark (f : Rat → Sample) {c : Cycle} {s : State} (hwm : s.wm = c) : flush f c s = .ok ([], s) := by
  subst hwm
  have hno : ¬ s.wm < s.wm := BitVec.lt_irrefl s.wm
  have hempty : ¬ 0 < sampleCount s.rate (s.wm.toNat - s.wm.toNat) := by simp [sampleCount_zero]
  rw [flush, if_neg hno, if_neg hempty, ite_self]

theorem writeRegister_rewind (register : State → State) {c : Cycle} {s : State} (hsim : s.cur.agent = .sim)
    (h : c < s.wm) : writeRegister register c s = .next (s.raise .rewind) := by
  rw [writeRegister, flush_rewind _ h]
  exact perform_error hsim

theorem writeRegister_of_flush (register : State → State) {c : Cycle} {s s1 : State} {ev : List Event}
    (hsim : s.cur.agent = .sim) (h : flush (convert s.conversion) c s = .ok (ev, s1)) :
    writeRegister register c s = .next ((register s1).respond (Response.events ev)) := by
  rw [writeRegister, h]
  exact perform_ok hsim

/-- `RUN` is a flush followed by the ignored register's function. -/
theorem exec_run_eq_writeRegister (c : Cycle) (s : State) :
    exec (.run c) s = writeRegister (dispatchReg .ignored 0) c s := rfl

theorem exec_run_of_flush {c : Cycle} {s s1 : State} {ev : List Event} (hsim : s.cur.agent = .sim)
    (h : flush (convert s.conversion) c s = .ok (ev, s1)) : exec (.run c) s = .next (s1.respond (Response.events ev)) :=
  writeRegister_of_flush (dispatchReg .ignored 0) hsim h

/-- Every flushing instruction is executed as a flush to its cycle operand followed by a register function. -/
theorem exec_eq_writeRegister_of_flushes {i : Instr} (hi : flushes i = true) (s : State) :
    ∃ register, exec i s = writeRegister register (cycleOperand i) s := by
  cases i with
  | run c => exact ⟨_, exec_run_eq_writeRegister c s⟩
  | apuwr | apuwrSq1Ctrl | apuwrSq1Ramp | apuwrSq1Lo | apuwrSq1Hi | apuwrSq2Ctrl | apuwrSq2Ramp | apuwrSq2Lo | apuwrSq2Hi
  | apuwrTriCtrl | apuwrTriLo | apuwrTriHi | apuwrEnable | apuwrIgnored => exact ⟨_, rfl⟩
  | _ => cases hi

/-- Settles O43: the flush comes first in every flushing instruction, and a target below the watermark fails it. -/
theorem rewindFaults : Obligations.RewindFaults := by
  intro i s hsim hlt hi
  obtain ⟨register, hexec⟩ := exec_eq_writeRegister_of_flushes ((flushes_iff i).2 hi) s
  exact hexec.trans (writeRegister_rewind register hsim hlt)

theorem dispatchReg_respond (reg : ApuReg) (v : Byte) (s : State) (r : Response) :
    (dispatchReg reg v s).respond r = dispatchReg reg v (s.respond r) := by
  cases reg <;> rfl

/-- The flush is one state for every register: each row of `APUWR` leaves its register function applied to the state that
`RUN`, the ignored register, leaves (R191). -/
theorem writeRegister_after_one_flush {c : Cycle} {s : State} (hsim : s.cur.agent = .sim) (hwm : s.wm ≤ c)
    (hfifo : s.att = true → s.fexists = true) :
    ∃ q r, exec (.run c) s = .next { s with wm := c, q := q, resp := some r } ∧
      ∀ reg v, writeRegister (dispatchReg reg v) c s =
        .next (dispatchReg reg v { s with wm := c, q := q, resp := some r }) := by
  obtain ⟨ev, q, hflush⟩ := flush_total (convert s.conversion) hwm hfifo
  refine ⟨q, Response.events ev, exec_run_of_flush hsim hflush, fun reg v => ?_⟩
  rw [writeRegister_of_flush _ hsim hflush, dispatchReg_respond]
  rfl

/-! ### Register writes (R191, R200 to R212) -/

/-- Settles O38: below the watermark the flush fails; otherwise the dispatch is applied to the state `RUN` leaves. -/
theorem apuWriteFlushesFirst : Obligations.ApuWriteFlushesFirst := by
  intro a v c s hsim
  refine ⟨writeRegister_rewind _ hsim, fun hwm hfifo => ?_⟩
  obtain ⟨q, r, hrun, hwrite⟩ := writeRegister_after_one_flush hsim hwm hfifo
  exact ⟨_, hrun, rfl, nofun, rfl, rfl, rfl, rfl, rfl, rfl, hwrite (apuReg a) v⟩

/-- Settles O39: the two duty functions, applied to the state `RUN` leaves. -/
theorem dutyWrites : Obligations.DutyWrites := by
  intro v c s hsim hwm hfifo
  obtain ⟨q, r, hrun, hwrite⟩ := writeRegister_after_one_flush hsim hwm hfifo
  exact ⟨_, hrun, rfl, nofun, rfl, hwrite .sq1Ctrl v, hwrite .sq2Ctrl v⟩

/-- The number of two concatenated fields. -/
theorem toNat_append_eq {m n : Nat} (hi : BitVec m) (lo : BitVec n) :
    (hi ++ lo).toNat = hi.toNat * 2 ^ n + lo.toNat := by
  rw [BitVec.toNat_append, ← Nat.shiftLeft_add_eq_or_of_lt lo.isLt, Nat.shiftLeft_eq]

theorem periodLow_eq (p : Period) (v : Byte) : periodLow p v = BitVec.ofNat 11 (p.toNat / 256 * 256 + v.toNat) := by
  have hp := p.isLt
  have hv := v.isLt
  apply BitVec.eq_of_toNat_eq
  rw [periodLow, toNat_append_eq, BitVec.extractLsb'_toNat, BitVec.toNat_ofNat, Nat.shiftRight_eq_div_pow]
  omega

theorem periodHigh_eq (p : Period) (v : Byte) :
    periodHigh p v = BitVec.ofNat 11 (v.toNat % 8 * 256 + p.toNat % 256) := by
  apply BitVec.eq_of_toNat_eq
  rw [periodHigh, toNat_append_eq, BitVec.extractLsb'_toNat, BitVec.extractLsb'_toNat, BitVec.toNat_ofNat,
    Nat.shiftRight_zero, Nat.shiftRight_zero]
  omega

/-- Settles O40: the six period functions, applied to the state `RUN` leaves, with their fields as numbers. -/
theorem periodWrites : Obligations.PeriodWrites := by
  intro v c s hsim hwm hfifo
  obtain ⟨q, r, hrun, hwrite⟩ := writeRegister_after_one_flush hsim hwm hfifo
  simp only [← periodLow_eq, ← periodHigh_eq]
  exact ⟨_, hrun, rfl, nofun, rfl, hwrite .sq1Lo v, hwrite .sq1Hi v, hwrite .sq2Lo v, hwrite .sq2Hi v,
    hwrite .triLo v, hwrite .triHi v⟩

theorem maskField_eq (v : Byte) : maskField v = BitVec.ofNat 5 (v.toNat % 32) := by
  apply BitVec.eq_of_toNat_eq
  rw [maskField, BitVec.extractLsb'_toNat, BitVec.toNat_ofNat, Nat.shiftRight_zero, Nat.mod_mod]

/-- Settles O41: the enable register's function, applied to the state `RUN` leaves, with its field as a number. -/
theorem enableWrite : Obligations.EnableWrite := by
  intro v c s hsim hwm hfifo
  obtain ⟨q, r, hrun, hwrite⟩ := writeRegister_after_one_flush hsim hwm hfifo
  simp only [← maskField_eq]
  exact ⟨_, hrun, rfl, nofun, rfl, rfl, hwrite .enable v⟩

/-- Settles O42: the four functions that change nothing, applied to the state `RUN` leaves. -/
theorem ignoredWrites : Obligations.IgnoredWrites := by
  intro a v c s hsim hwm hfifo
  obtain ⟨q, r, hrun, hwrite⟩ := writeRegister_after_one_flush hsim hwm hfifo
  exact ⟨_, hrun, rfl, nofun, rfl, rfl, rfl, rfl, rfl,
    hwrite .sq1Ramp v, hwrite .sq2Ramp v, hwrite .triCtrl v, hwrite .ignored v⟩

/-! ### Channel toggles (R213) -/

theorem getLsbD_toggleBit (m : Mask) (ch : BitVec 3) {k : Nat} (hk : k < 5) :
    (toggleBit m ch).getLsbD k = if k = ch.toNat then !m.getLsbD k else m.getLsbD k := by
  have hbit : (1#5 <<< ch.toNat).getLsbD k = decide (k = ch.toNat) := by
    rw [BitVec.getLsbD_shiftLeft, BitVec.getLsbD_one]
    grind
  rw [toggleBit, BitVec.getLsbD_xor, hbit]
  by_cases h : k = ch.toNat <;> simp [h]

theorem toggleBit_toggleBit (m : Mask) (ch : BitVec 3) : toggleBit (toggleBit m ch) ch = m := by
  rw [toggleBit, toggleBit, BitVec.xor_assoc, BitVec.xor_self, BitVec.xor_zero]

theorem noChannel_iff (ch : BitVec 3) : noChannel ch = true ↔ 5 ≤ ch.toNat := decide_eq_true_iff

theorem exec_toggle {ch : BitVec 3} {s : State} (hsim : s.cur.agent = .sim) (hch : ch.toNat < 5) :
    exec (.toggle ch) s = .next (State.respond { s with host := toggleBit s.host ch } Response.empty) := by
  have hlegal : ¬ noChannel ch = true := by rw [noChannel_iff]; omega
  exact (if_neg hlegal).trans (perform_ok hsim)

/-- Settles O44: a legal channel reaches the body, whose exclusive or is undone by a second one; the others raise ILLEGAL
before it. -/
theorem toggleFlipsOneHostBit : Obligations.ToggleFlipsOneHostBit := by
  intro ch s
  refine ⟨fun hsim hch => ⟨toggleBit s.host ch, exec_toggle hsim hch, fun k hk => getLsbD_toggleBit s.host ch hk, ?_⟩,
    fun hch => if_pos ((noChannel_iff ch).2 hch)⟩
  have htwice := exec_toggle (s := { s with host := toggleBit s.host ch }) hsim hch
  rw [toggleBit_toggleBit] at htwice
  exact htwice

/-! ### RUN on its own (R217, R223, R227, R228) -/

/-- Settles O45: the flush of an unattached orchestrator is a move of the watermark. -/
theorem unattachedRunMovesTheWatermark : Obligations.UnattachedRunMovesTheWatermark :=
  fun _ _ hsim hwm hatt => exec_run_of_flush hsim (flush_unattached _ hwm hatt)

/-- Settles O49: the second `RUN` is a flush to the watermark the first one left. -/
theorem flushIsIdempotent : Obligations.FlushIsIdempotent := by
  intro c s hsim hwm hfifo
  obtain ⟨q, r, hrun, _⟩ := writeRegister_after_one_flush hsim hwm hfifo
  exact ⟨_, hrun, nofun, rfl, exec_run_of_flush hsim (flush_to_watermark _ rfl)⟩

/-- `RUN` into an attached, unbounded FIFO (R223, R224). -/
theorem exec_run_unbounded {c : Cycle} {s : State} (hsim : s.cur.agent = .sim) (hwm : s.wm ≤ c) (hatt : s.att = true)
    (hexists : s.fexists = true) (hdepth : s.fifoDepth = none) :
    exec (.run c) s = .next (State.respond
      { s with wm := c, q := s.q ++ flushSamples (convert s.conversion) c s } Response.empty) :=
  exec_run_of_flush hsim (flush_unbounded hwm hatt hexists hdepth)

/-- An attached flush into a FIFO of depth `d` keeps the newest `d` samples (44_sample_buffer_fifo.md R274); with no sample
to append the queue already fits, and nothing is dropped. -/
theorem flush_bounded {f : Rat → Sample} {c : Cycle} {s : State} {d : Nat} (hwm : s.wm ≤ c) (hatt : s.att = true)
    (hexists : s.fexists = true) (hdepth : s.fifoDepth = some d) (hfits : s.q.length ≤ d) :
    let q := s.q ++ flushSamples f c s
    flush f c s = .ok (if q.length ≤ d then [] else [.overflow (q.length - d)],
      { s with wm := c, q := q.drop (q.length - d) }) := by
  have hno : ¬ c < s.wm := BitVec.not_lt.2 hwm
  simp only [flush, if_neg hno, if_pos hatt]
  split
  · simp [fifoAppend, hexists, boundQueue, hdepth, bind, Except.bind, Nat.sub_eq_zero_iff_le]
  · rename_i hcount
    have hnone : flushSamples f c s = [] := List.eq_nil_of_length_eq_zero (by rw [flushSamples_length]; omega)
    simp [hnone, hfits]

/-- The length of the newest `d` entries of a queue. -/
theorem length_drop_length_sub {α : Type} (q : List α) (d : Nat) : (q.drop (q.length - d)).length = min d q.length := by
  rw [List.length_drop]
  omega

/-- Settles O48: the bounded flush drops the front of the queue that the unbounded one leaves. -/
theorem runIntoABoundedFifo : Obligations.RunIntoABoundedFifo := by
  intro c d s hinv hsim hwm hatt hdepth
  have hexists := hinv.attached hatt
  have hfits := (hinv.depth d hdepth).2
  have hflush := flush_bounded (f := convert s.conversion) hwm hatt hexists hdepth hfits
  exact ⟨_, _, exec_run_unbounded hsim hwm hatt hexists rfl, exec_run_of_flush hsim hflush, List.drop_suffix _ _,
    length_drop_length_sub _ d⟩

/-- `RUN` into an attached, unbounded FIFO appends as many samples as R218 says. -/
theorem exec_run_unbounded_count {c : Cycle} {s : State} (hsim : s.cur.agent = .sim) (hwm : s.wm ≤ c)
    (hatt : s.att = true) (hexists : s.fexists = true) (hdepth : s.fifoDepth = none) :
    ∃ xs, exec (.run c) s = .next (State.respond { s with wm := c, q := s.q ++ xs } Response.empty) ∧
      xs.length = s.rate.toNat * (c.toNat - s.wm.toNat) / 1789773 :=
  ⟨_, exec_run_unbounded hsim hwm hatt hexists hdepth, flushSamples_length ..⟩

/-- Settles O50: three flushes into an unbounded FIFO, and the floors of two summands against the floor of their sum. -/
theorem cuttingAFlushLosesSamples : Obligations.CuttingAFlushLosesSamples := by
  intro b c s hsim hb hc hatt hexists hdepth
  obtain ⟨xs, hfirst, hxs⟩ := exec_run_unbounded_count hsim hb hatt hexists hdepth
  obtain ⟨ys, hsecond, hys⟩ := exec_run_unbounded_count
    (s := State.respond { s with wm := b, q := s.q ++ xs } Response.empty) hsim hc hatt hexists hdepth
  obtain ⟨zs, hwhole, hzs⟩ := exec_run_unbounded_count hsim (BitVec.le_trans hb hc) hatt hexists hdepth
  refine ⟨_, _, _, hfirst, hsecond, hwhole, ?_⟩
  simp only [State.respond_q, State.respond_rate, State.respond_wm, List.length_append] at hys ⊢
  have hsum : s.rate.toNat * (c.toNat - s.wm.toNat) =
      s.rate.toNat * (b.toNat - s.wm.toNat) + s.rate.toNat * (c.toNat - b.toNat) := by
    have hb' := BitVec.le_def.1 hb
    have hc' := BitVec.le_def.1 hc
    rw [← Nat.mul_add]
    congr 1
    omega
  refine ⟨by omega, by omega, by omega, by omega, fun hrate hbwm hcwm => ?_⟩
  rw [hrate, hbwm] at hxs
  rw [hrate, hbwm, hcwm] at hys
  rw [hrate, hcwm] at hzs
  omega

end Sys2Proof.Machine

/-!
PROOFS. The samples of a flush: when they are taken (42_apu_orchestrator.md R219), the mix of the enabled channels at that
time (R220 to R222) with the waves of 43_oscillators.md (R241 to R248), and the queue an attached `RUN` leaves (R218, R223).
-/
namespace Sys2Proof.Machine

/-! ### Sample times (R219) -/

/-- A flush of rate 0 makes no sample. -/
theorem rate_pos_of_lt_sampleCount {rate : BitVec 32} {elapsed i : Nat} (h : i < sampleCount rate elapsed) :
    0 < rate.toNat := by
  refine Nat.pos_of_ne_zero fun hzero => ?_
  rw [sampleCount, hzero, Nat.zero_mul, Nat.zero_div] at h
  exact absurd h (Nat.not_lt_zero i)

/-- Sample `i` of a flush falls before the end of its window, in cycles times rate. -/
theorem mul_cpuFreq_lt_of_lt_sampleCount {rate : BitVec 32} {elapsed i : Nat} (h : i < sampleCount rate elapsed) :
    i * 1789773 < rate.toNat * elapsed := by
  simp only [sampleCount, Config.cpuFreq] at h
  omega

/-- Settles O51: `i * CPU_FREQ < RATE * elapsed`, divided by `RATE * CPU_FREQ`. -/
theorem sampleTimesInsideTheWindow : Obligations.SampleTimesInsideTheWindow := by
  intro wm c rate i hwm hi
  have hrate : (0 : Rat) < rate.toNat := by exact_mod_cast rate_pos_of_lt_sampleCount hi
  have hcycles : (i : Rat) * 1789773 < rate.toNat * ((c.toNat : Rat) - wm.toNat) := by
    rw [← Nat.cast_sub (BitVec.le_def.1 hwm)]
    exact_mod_cast mul_cpuFreq_lt_of_lt_sampleCount hi
  constructor
  · exact le_add_of_nonneg_right (by positivity)
  · have hoffset : (i : Rat) / rate.toNat < ((c.toNat : Rat) - wm.toNat) / 1789773 := by
      rw [div_lt_div_iff₀ hrate (by norm_num), mul_comm _ (rate.toNat : Rat)]
      exact hcycles
    calc (wm.toNat : Rat) / 1789773 + i / rate.toNat
        < wm.toNat / 1789773 + ((c.toNat : Rat) - wm.toNat) / 1789773 := by gcongr
      _ = c.toNat / 1789773 := by ring

/-! ### The mix of the channels at one time (R220 to R222) -/

/-- Settles O46: the model's coefficients are the exact rationals of R221. -/
theorem mixFormula : Obligations.MixFormula := by
  have hformula (sq1 sq2 tri noise dmc : Rat) : mix sq1 sq2 tri noise dmc =
      752 / 100000 * (sq1 + sq2) + (851 / 100000 * tri + 494 / 100000 * noise + 335 / 100000 * dmc) := rfl
  refine ⟨hformula, ?_⟩
  simp only [hformula]
  norm_num

/-- A pulse channel's output at a time, muted or not (43_oscillators.md R241, R243). -/
def pulseOut (o : PulseOsc) (t : Rat) : Rat := if o.period.toNat < Config.pulseMute then 0 else pulseAt o t

/-- A triangle channel's output at a time, muted or not (43_oscillators.md R246, R248). -/
def triangleOut (p : Period) (t : Rat) : Rat := if p.toNat < Config.triangleMute then 0 else triangleAt p t

/-- The mixed value at a time: the enabled channels, noise and DMC at 0. -/
def mixedAt (s : State) (t : Rat) : Rat :=
  mix (if channelEnabled s 0 then pulseOut s.sq1 t else 0) (if channelEnabled s 1 then pulseOut s.sq2 t else 0)
    (if channelEnabled s 2 then triangleOut s.tri t else 0) 0 0

theorem zeros_eq_map (n : Nat) : zeros n = (List.range n).map fun _ => 0 := by
  rw [zeros, List.map_const', List.length_range]

theorem pulseFill_eq_map (o : PulseOsc) (t0 : Rat) (rate n : Nat) :
    pulseFill o t0 rate n = (List.range n).map fun i => pulseOut o (sampleTime t0 rate i) := by
  by_cases hmute : o.period.toNat < Config.pulseMute
  · simp only [pulseFill, pulseOut, if_pos hmute]
    exact zeros_eq_map n
  · simp only [pulseFill, pulseOut, if_neg hmute]

theorem triangleFill_eq_map (p : Period) (t0 : Rat) (rate n : Nat) :
    triangleFill p t0 rate n = (List.range n).map fun i => triangleOut p (sampleTime t0 rate i) := by
  by_cases hmute : p.toNat < Config.triangleMute
  · simp only [triangleFill, triangleOut, if_pos hmute]
    exact zeros_eq_map n
  · simp only [triangleFill, triangleOut, if_neg hmute]

theorem mixBuffers_map {α : Type} (f g h j k : α → Rat) (l : List α) :
    mixBuffers (l.map f) (l.map g) (l.map h) (l.map j) (l.map k) = l.map fun i => mix (f i) (g i) (h i) (j i) (k i) := by
  induction l with
  | nil => rfl
  | cons a l ih => simp only [List.map_cons, mixBuffers, ih]

/-- A flush mixes sample by sample (R215 step 4). -/
theorem mixedValues_eq_map (s : State) (n : Nat) :
    mixedValues s n = (List.range n).map fun i => mixedAt s (sampleTime (windowStart s.wm) s.rate.toNat i) := by
  have hchannel (b : Bool) (f : Nat → Rat) :
      (if b then (List.range n).map f else (List.range n).map fun _ => 0) =
        (List.range n).map fun i => if b then f i else 0 := by cases b <;> rfl
  simp only [mixedValues, pulseFill_eq_map, triangleFill_eq_map, zeros_eq_map, hchannel, mixBuffers_map, mixedAt]

theorem getElem?_flushSamples (f : Rat → Sample) {c : Cycle} {s : State} {i : Nat}
    (hi : i < sampleCount s.rate (c.toNat - s.wm.toNat)) :
    (flushSamples f c s)[i]? = some (f (mixedAt s (sampleTime (windowStart s.wm) s.rate.toNat i))) := by
  rw [flushSamples, mixedValues_eq_map, List.getElem?_map, List.getElem?_map, List.getElem?_range hi]
  rfl

/-! ### The waves by their phase at a sample (43_oscillators.md R242 to R248) -/

theorem dutyFraction_eq (d : BitVec 2) : dutyFraction d = ([1 / 8, 1 / 4, 1 / 2, 3 / 4] : List Rat).getD d.toNat 0 := by
  match d with
  | 0#2 | 1#2 | 2#2 | 3#2 => rfl

theorem triangleWave_eq (x : Rat) : triangleWave x =
    ([frac x, 1 - frac x, -frac x, -1 + frac x] : List Rat).getD (x.floor % 4).toNat 0 := by
  have hquadrant : (x.floor % 4).toNat < 4 := by omega
  rw [triangleWave]
  match (x.floor % 4).toNat, hquadrant with
  | 0, _ | 1, _ | 2, _ | 3, _ => rfl

/-- The time of sample `i`, in cycles times rate over both. -/
theorem sampleTime_eq_div (wm : Cycle) {rate : Nat} (hrate : 0 < rate) (i : Nat) :
    sampleTime (windowStart wm) rate i = ((wm.toNat : Rat) * rate + i * 1789773) / (rate * 1789773) := by
  have hne : (rate : Rat) ≠ 0 := by exact_mod_cast hrate.ne'
  rw [sampleTime, windowStart, Config.cpuFreq]
  push_cast
  field_simp

theorem div_pulsePeriod (n r : Rat) (p : Period) :
    n / (r * 1789773) / pulsePeriod p = n / (r * 16 * ((p.toNat : Rat) + 1)) := by
  rw [pulsePeriod, Config.cpuFreq]
  push_cast
  field_simp

theorem div_trianglePeriod (n r : Rat) (p : Period) :
    n / (r * 1789773) / trianglePeriod p * 4 = 4 * n / (r * 32 * ((p.toNat : Rat) + 1)) := by
  rw [trianglePeriod, Config.cpuFreq]
  push_cast
  field_simp

/-- A pulse channel at sample `i`, by the phase of R243 in cycles times rate. -/
theorem pulseOut_sampleTime (o : PulseOsc) (wm : Cycle) {rate : Nat} (hrate : 0 < rate) (i : Nat) :
    pulseOut o (sampleTime (windowStart wm) rate i) =
      if o.period.toNat < 8 then 0
      else
        let x : Rat := ((wm.toNat : Rat) * rate + i * 1789773) / (rate * 16 * ((o.period.toNat : Rat) + 1))
        if x - x.floor ≤ ([1 / 8, 1 / 4, 1 / 2, 3 / 4] : List Rat).getD o.duty.toNat 0 then 1 else -1 := by
  rw [sampleTime_eq_div wm hrate, pulseOut, pulseAt, div_pulsePeriod, dutyFraction_eq]
  rfl

/-- The triangle channel at sample `i`, by the scaled phase of R248 in cycles times rate. -/
theorem triangleOut_sampleTime (p : Period) (wm : Cycle) {rate : Nat} (hrate : 0 < rate) (i : Nat) :
    triangleOut p (sampleTime (windowStart wm) rate i) =
      let x : Rat := 4 * ((wm.toNat : Rat) * rate + i * 1789773) / (rate * 32 * ((p.toNat : Rat) + 1))
      let offset : Rat := x - x.floor
      if p.toNat < 2 then 0
      else ([offset, 1 - offset, -offset, -1 + offset] : List Rat).getD (x.floor % 4).toNat 0 := by
  rw [sampleTime_eq_div wm hrate, triangleOut, triangleAt, div_trianglePeriod, triangleWave_eq]
  rfl

/-- The mix of the three synthesized channels, exactly (R221, R222). -/
theorem mixedAt_eq (s : State) (t : Rat) :
    let enabled (k : Nat) : Bool := s.host.getLsbD k && s.guest.getLsbD k
    mixedAt s t =
      752 / 100000 * ((if enabled 0 then pulseOut s.sq1 t else 0) + (if enabled 1 then pulseOut s.sq2 t else 0)) +
      851 / 100000 * (if enabled 2 then triangleOut s.tri t else 0) := by
  simp only [mixedAt, channelEnabled, BitVec.getLsbD_and, mixFormula.1, mul_zero, add_zero]

/-! ### An attached RUN into an unbounded FIFO (R214, R218, R223) -/

/-- Settles O47: the queue gains the flush's samples, and the phase of each is its time over the oscillator's period. -/
theorem runAppendsMixedSamples : Obligations.RunAppendsMixedSamples := by
  intro c s hsim hwm hatt hexists hdepth
  refine ⟨_, exec_run_unbounded hsim hwm hatt hexists hdepth, flushSamples_length .., fun i hi => ?_⟩
  rw [flushSamples_length] at hi
  have hrate := rate_pos_of_lt_sampleCount hi
  have hsample := getElem?_flushSamples (convert s.conversion) hi
  simp only [mixedAt_eq, pulseOut_sampleTime _ _ hrate, triangleOut_sampleTime _ _ hrate] at hsample
  exact ⟨hsample, fun hdefault => hdefault ▸ hsample⟩

end Sys2Proof.Machine

/-!
PROOFS. The one rounding of the audio path (42_apu_orchestrator.md R225): the value of a binary32, the default `toF32` as its
nearest one, and the range of what is rounded (R226).
-/
namespace Sys2Proof.Machine

/-! ### The value of a binary32 by the number of its low 31 bits -/

/-- The value of the low 31 bits of a binary32, exponent field and fraction. -/
def magnitudeValue (m : Nat) : Rat :=
  if m / 2 ^ 23 = 0 then ((m % 2 ^ 23 : Nat) : Rat) * (2 : Rat) ^ (-149 : Int)
  else ((2 ^ 23 + m % 2 ^ 23 : Nat) : Rat) * (2 : Rat) ^ (((m / 2 ^ 23 : Nat) : Int) - 150)

theorem magnitudeValue_zero : magnitudeValue 0 = 0 := by simp [magnitudeValue]

theorem magnitudeValue_nonneg (m : Nat) : 0 ≤ magnitudeValue m := by
  unfold magnitudeValue
  split <;> positivity

/-- The binary32 with the given sign bit and low 31 bits. -/
def f32OfBits (sign : Bool) (m : Nat) : Sample := BitVec.ofNat 32 ((if sign then 2 ^ 31 else 0) + m)

theorem toNat_f32OfBits (sign : Bool) {m : Nat} (hm : m < 2 ^ 31) :
    (f32OfBits sign m).toNat = sign.toNat * 2 ^ 31 + m := by
  have hsign : (if sign then 2 ^ 31 else 0) = sign.toNat * 2 ^ 31 := by cases sign <;> rfl
  have hle := Bool.toNat_le sign
  rw [f32OfBits, BitVec.toNat_ofNat, hsign]
  omega

theorem f32OfBits_exponent (sign : Bool) {m : Nat} (hm : m < 2 ^ 31) :
    ((f32OfBits sign m).extractLsb' 23 8).toNat = m / 2 ^ 23 := by
  rw [BitVec.extractLsb'_toNat, toNat_f32OfBits sign hm, Nat.shiftRight_eq_div_pow]
  omega

theorem f32OfBits_fraction (sign : Bool) {m : Nat} (hm : m < 2 ^ 31) :
    ((f32OfBits sign m).extractLsb' 0 23).toNat = m % 2 ^ 23 := by
  rw [BitVec.extractLsb'_toNat, toNat_f32OfBits sign hm, Nat.shiftRight_zero]
  omega

theorem f32OfBits_sign (sign : Bool) {m : Nat} (hm : m < 2 ^ 31) : (f32OfBits sign m).getLsbD 31 = sign := by
  have hbit : (sign.toNat * 2 ^ 31 + m) / 2 ^ 31 = sign.toNat := by omega
  rw [← BitVec.testBit_toNat, toNat_f32OfBits sign hm, Nat.testBit_eq_decide_div_mod_eq, hbit]
  cases sign <;> rfl

theorem f32OfBits_lastBit (sign : Bool) {m : Nat} (hm : m < 2 ^ 31) (heven : m % 2 = 0) :
    (f32OfBits sign m).getLsbD 0 = false := by
  rw [← BitVec.testBit_toNat, toNat_f32OfBits sign hm, Nat.testBit_zero, decide_eq_false_iff_not]
  omega

theorem f32Value_f32OfBits (sign : Bool) {m : Nat} (hm : m < 2 ^ 31) :
    f32Value (f32OfBits sign m) = if sign then -magnitudeValue m else magnitudeValue m := by
  simp only [f32Value, f32OfBits_sign sign hm, f32OfBits_exponent sign hm, f32OfBits_fraction sign hm, magnitudeValue]

/-- Every binary32 is a sign bit above its low 31 bits. -/
theorem exists_f32OfBits (x : Sample) : ∃ sign m, m < 2 ^ 31 ∧ x = f32OfBits sign m := by
  have hx := x.isLt
  refine ⟨decide (2 ^ 31 ≤ x.toNat), x.toNat % 2 ^ 31, Nat.mod_lt _ (by norm_num), BitVec.eq_of_toNat_eq ?_⟩
  rw [toNat_f32OfBits _ (Nat.mod_lt _ (by norm_num))]
  by_cases h : 2 ^ 31 ≤ x.toNat
  · rw [decide_eq_true h, Bool.toNat_true]
    omega
  · rw [decide_eq_false h, Bool.toNat_false]
    omega

/-- Every magnitude is less than `2 ^ 24` units of an exponent of at least -126. -/
theorem magnitudeValue_grid (m : Nat) :
    ∃ (k : Nat) (e : Int), k < 2 ^ 24 ∧ -126 ≤ e ∧ magnitudeValue m = k * (2 : Rat) ^ (e - 23) := by
  have hlt := Nat.mod_lt m (show 0 < 2 ^ 23 by norm_num)
  by_cases hsub : m / 2 ^ 23 = 0
  · exact ⟨m % 2 ^ 23, -126, by omega, le_rfl, if_pos hsub⟩
  · refine ⟨2 ^ 23 + m % 2 ^ 23, (m / 2 ^ 23 : Nat) - 127, by omega, by omega, (if_neg hsub).trans ?_⟩
    congr 2
    ring

/-- A significand in units of `2 ^ (j - 126 - 23)` added to the exponent field `j`, as `magnitudeBits` does: a subnormal when
it is below `2 ^ 23`, and at `2 ^ 24` it carries into the field. -/
theorem magnitudeValue_add {j k : Nat} (hlow : j = 0 ∨ 2 ^ 23 ≤ k) (hhigh : k ≤ 2 ^ 24) :
    magnitudeValue (j * 2 ^ 23 + k) = k * (2 : Rat) ^ ((j : Int) - 126 - 23) := by
  obtain hsub | hnormal := Nat.lt_or_ge k (2 ^ 23)
  · obtain rfl : j = 0 := by omega
    have hfield : (0 * 2 ^ 23 + k) / 2 ^ 23 = 0 := by omega
    have hfraction : (0 * 2 ^ 23 + k) % 2 ^ 23 = k := by omega
    rw [magnitudeValue, if_pos hfield, hfraction]
    rfl
  obtain hfits | rfl := Nat.lt_or_eq_of_le hhigh
  · have hfield : (j * 2 ^ 23 + k) / 2 ^ 23 = j + 1 := by omega
    have hfraction : 2 ^ 23 + (j * 2 ^ 23 + k) % 2 ^ 23 = k := by omega
    rw [magnitudeValue, hfield, hfraction, if_neg (Nat.succ_ne_zero j)]
    push_cast
    congr 2
    ring
  · have hfield : (j * 2 ^ 23 + 2 ^ 24) / 2 ^ 23 = j + 2 := by omega
    have hfraction : 2 ^ 23 + (j * 2 ^ 23 + 2 ^ 24) % 2 ^ 23 = 2 ^ 23 := by omega
    rw [magnitudeValue, hfield, hfraction, if_neg (Nat.succ_ne_zero (j + 1))]
    have hcarry : ((j + 2 : Nat) : Int) - 150 = 1 + ((j : Int) - 126 - 23) := by push_cast; ring
    rw [hcarry, zpow_add₀ two_ne_zero]
    push_cast
    ring

/-! ### The nearest magnitude -/

theorem two_pow_mul_zpow (n : Nat) (e : Int) : ((2 ^ n : Nat) : Rat) * 2 ^ e = 2 ^ (e + n) := by
  rw [zpow_add₀ two_ne_zero, zpow_natCast, mul_comm]
  push_cast
  rfl

/-- Rounding at the unit of the value's own binade is nearest among the magnitudes of every binade. -/
theorem significand_nearest_magnitude {num den : Nat} {e : Int} (hden : 0 < den)
    (hbinade : e = -126 ∨ (2 : Rat) ^ e ≤ num / den) (m : Nat) :
    |(significand e num den : Rat) * 2 ^ (e - 23) - num / den| ≤ |magnitudeValue m - num / den| ∧
    (|magnitudeValue m - num / den| = |(significand e num den : Rat) * 2 ^ (e - 23) - num / den| →
      magnitudeValue m = significand e num den * 2 ^ (e - 23) ∨ significand e num den % 2 = 0) := by
  obtain ⟨k, e', hk, he', hvalue⟩ := magnitudeValue_grid m
  rw [hvalue]
  obtain hcoarse | hfine := le_or_gt e e'
  · -- a whole number of the same units
    have hunits : (k : Rat) * 2 ^ (e' - 23) = ((k * 2 ^ (e' - e).toNat : Nat) : Rat) * 2 ^ (e - 23) := by
      rw [Nat.cast_mul, mul_assoc, two_pow_mul_zpow]
      congr 2
      omega
    obtain ⟨hnear, htie⟩ := significand_nearest e num den (k * 2 ^ (e' - e).toNat) hden
    rw [hunits]
    exact ⟨hnear, fun heq => (htie heq).imp_left fun h => by rw [h]⟩
  · -- a magnitude of a lower binade is farther than the lower end of the value's own
    have hlow : (2 : Rat) ^ e ≤ num / den := hbinade.resolve_left (by omega)
    have hbelow : (k : Rat) * 2 ^ (e' - 23) < 2 ^ e := by
      calc (k : Rat) * 2 ^ (e' - 23) < ((2 ^ 24 : Nat) : Rat) * 2 ^ (e' - 23) := by gcongr
        _ = 2 ^ (e' - 23 + (24 : Nat)) := two_pow_mul_zpow ..
        _ ≤ 2 ^ e := zpow_le_zpow_right₀ (by norm_num) (by omega)
    have hend : ((2 ^ 23 : Nat) : Rat) * 2 ^ (e - 23) = 2 ^ e := by
      rw [two_pow_mul_zpow]
      congr 1
      omega
    have hnear := (significand_nearest e num den (2 ^ 23) hden).1
    rw [hend, abs_sub_comm, abs_sub_comm _ (_ / _), abs_of_nonneg (sub_nonneg.2 hlow)] at hnear
    have hfar : |(k : Rat) * 2 ^ (e' - 23) - num / den| = num / den - k * 2 ^ (e' - 23) := by
      rw [abs_sub_comm, abs_of_pos]
      linarith
    rw [hfar, abs_sub_comm]
    exact ⟨by linarith, fun heq => by linarith⟩

/-- Rounding does not pass a whole number of units above the value. -/
theorem significand_le {num den k : Nat} {e : Int} (hden : 0 < den) (hk : (num : Rat) / den ≤ k * 2 ^ (e - 23)) :
    significand e num den ≤ k := by
  by_contra! hlt
  have hunits : (k : Rat) * 2 ^ (e - 23) < significand e num den * 2 ^ (e - 23) := by gcongr
  have hnear := (significand_nearest e num den k hden).1
  rw [abs_of_nonneg (by linarith), abs_of_nonneg (by linarith)] at hnear
  linarith

/-- Rounding does not pass a whole number of units below the value. -/
theorem le_significand {num den k : Nat} {e : Int} (hden : 0 < den) (hk : (k : Rat) * 2 ^ (e - 23) ≤ num / den) :
    k ≤ significand e num den := by
  by_contra! hlt
  have hunits : (significand e num den : Rat) * 2 ^ (e - 23) < k * 2 ^ (e - 23) := by gcongr
  have hnear := (significand_nearest e num den k hden).1
  rw [abs_of_nonpos (by linarith), abs_of_nonpos (by linarith)] at hnear
  linarith

/-- The bits of a positive value of at most 1: an exponent field of at most 126 and the significand in its units, normal
unless the field is 0. -/
theorem magnitudeBits_eq {num den : Nat} (hnum : 0 < num) (hden : 0 < den) (hle : num ≤ den) :
    ∃ (j : Nat) (e : Int), e = j - 126 ∧ j ≤ 126 ∧ (e = -126 ∨ (2 : Rat) ^ e ≤ num / den) ∧
      (j = 0 ∨ 2 ^ 23 ≤ significand e num den) ∧ significand e num den ≤ 2 ^ 24 ∧
      magnitudeBits num den = j * 2 ^ 23 + significand e num den := by
  obtain ⟨hlow, hhigh⟩ := binaryExponent_spec num den hnum hden
  have hone : (num : Rat) / den ≤ 1 := div_le_one_of_le₀ (by exact_mod_cast hle) (Nat.cast_nonneg den)
  have hexp : binaryExponent num den ≤ 0 := (zpow_le_one_iff_right₀ one_lt_two).1 (hlow.trans hone)
  obtain ⟨e, he⟩ : ∃ e, e = max (binaryExponent num den) (-126) := ⟨_, rfl⟩
  have hbinade : e = -126 ∨ (2 : Rat) ^ e ≤ num / den := by
    obtain h | h : e = -126 ∨ e = binaryExponent num den := by omega
    · exact .inl h
    · exact .inr (h ▸ hlow)
  have hunit (n : Nat) : ((2 ^ n : Nat) : Rat) * 2 ^ (e - 23) = 2 ^ (e - 23 + n) := two_pow_mul_zpow ..
  have hmax : significand e num den ≤ 2 ^ 24 := by
    refine significand_le hden ?_
    rw [hunit]
    exact hhigh.le.trans (zpow_le_zpow_right₀ one_le_two (by omega))
  refine ⟨(e + 126).toNat, e, by omega, by omega, hbinade, ?_, hmax, ?_⟩
  · refine hbinade.imp (by omega) fun h => le_significand hden ?_
    rw [hunit]
    exact h.trans_eq' (by congr 1; omega)
  · rw [magnitudeBits, if_neg hnum.ne', ← he]
    exact min_eq_left (by omega)

/-- What `magnitudeBits` gives for a value of at most 1: bits of at most 2.0, whose value is the nearest magnitude, the even
one of two that are as near. -/
theorem magnitudeBits_nearest {num den : Nat} (hden : 0 < den) (hle : num ≤ den) :
    magnitudeBits num den ≤ 2 ^ 30 ∧ ∀ m,
      |magnitudeValue (magnitudeBits num den) - num / den| ≤ |magnitudeValue m - num / den| ∧
      (|magnitudeValue m - num / den| = |magnitudeValue (magnitudeBits num den) - num / den| →
        magnitudeValue m = magnitudeValue (magnitudeBits num den) ∨ magnitudeBits num den % 2 = 0) := by
  obtain rfl | hnum := Nat.eq_zero_or_pos num
  · have hbits : magnitudeBits 0 den = 0 := if_pos rfl
    simp [hbits, magnitudeValue_zero]
  · obtain ⟨j, e, rfl, hj, hbinade, hlow, hhigh, hbits⟩ := magnitudeBits_eq hnum hden hle
    rw [hbits, magnitudeValue_add hlow hhigh]
    refine ⟨by omega, fun m => ?_⟩
    obtain ⟨hnear, htie⟩ := significand_nearest_magnitude hden hbinade m
    exact ⟨hnear, fun h => (htie h).imp_right fun heven => by omega⟩

/-! ### The default conversion (R225) -/

theorem toF32_eq (v : Rat) : toF32 v = f32OfBits (decide (v < 0)) (magnitudeBits v.num.natAbs v.den) := by
  simp only [toF32, f32OfBits, decide_eq_true_eq]

theorem toF32_zero : toF32 0 = 0x00000000 := rfl

theorem abs_eq_num_div_den (v : Rat) : |v| = (v.num.natAbs : Rat) / v.den := by
  conv_lhs => rw [← v.num_div_den]
  rw [abs_div, Nat.abs_cast, Nat.cast_natAbs, Int.cast_abs]

theorem num_natAbs_le_den {v : Rat} (hv : |v| ≤ 1) : v.num.natAbs ≤ v.den := by
  rw [abs_eq_num_div_den, div_le_one (by exact_mod_cast v.den_pos)] at hv
  exact_mod_cast hv

/-- The default conversion of a value of magnitude at most 1 is finite (R226). -/
theorem f32Finite_toF32 {v : Rat} (hv : |v| ≤ 1) : f32Finite (toF32 v) = true := by
  have hbits := (magnitudeBits_nearest v.den_pos (num_natAbs_le_den hv)).1
  have hexponent := f32OfBits_exponent (decide (v < 0)) (m := magnitudeBits v.num.natAbs v.den) (by omega)
  rw [f32Finite, bne_iff_ne, toF32_eq]
  intro h
  rw [h] at hexponent
  change 255 = _ at hexponent
  omega

theorem abs_f32Value_f32OfBits (sign : Bool) {m : Nat} (hm : m < 2 ^ 31) :
    |f32Value (f32OfBits sign m)| = magnitudeValue m := by
  rw [f32Value_f32OfBits sign hm]
  cases sign <;> simp [abs_of_nonneg (magnitudeValue_nonneg m)]

/-- The default conversion keeps the sign, so its error is that of the magnitude. -/
theorem abs_f32Value_toF32_sub {v : Rat} (hv : |v| ≤ 1) :
    |f32Value (toF32 v) - v| = |magnitudeValue (magnitudeBits v.num.natAbs v.den) - (|v|)| := by
  have hbits := (magnitudeBits_nearest v.den_pos (num_natAbs_le_den hv)).1
  rw [toF32_eq, f32Value_f32OfBits _ (by omega)]
  by_cases hneg : v < 0
  · rw [decide_eq_true hneg, if_pos rfl, abs_of_neg hneg, ← abs_neg]
    congr 1
    ring
  · rw [decide_eq_false hneg, if_neg Bool.false_ne_true, abs_of_nonneg (not_lt.1 hneg)]

/-- Two numbers of one magnitude that are as near to a nonzero value are one number. -/
theorem eq_or_eq_zero_of_abs_eq {y z v : Rat} (habs : |y| = |z|) (htie : |y - v| = |z - v|) : y = z ∨ v = 0 := by
  obtain h | rfl := abs_eq_abs.1 habs
  · exact .inl h
  obtain h | h := abs_eq_abs.1 htie
  · exact .inl (by linarith)
  · exact .inr (by linarith)

/-- Settles O54: the errors are at least those of the magnitudes, where `magnitudeBits_nearest` decides; in a tie of equal
magnitudes the signs are equal too. -/
theorem storedSampleIsNearest : Obligations.StoredSampleIsNearest := by
  refine ⟨toF32_zero, fun v hv => ⟨f32Finite_toF32 hv, fun y _ => ?_⟩⟩
  obtain ⟨hbits, hnearest⟩ := magnitudeBits_nearest v.den_pos (num_natAbs_le_den hv)
  have hself := abs_f32Value_toF32_sub hv
  obtain ⟨sign, m, hm, rfl⟩ := exists_f32OfBits y
  have hother : |magnitudeValue m - (|v|)| ≤ |f32Value (f32OfBits sign m) - v| := by
    rw [← abs_f32Value_f32OfBits sign hm]
    exact abs_abs_sub_abs_le _ v
  obtain ⟨hnear, htie⟩ := hnearest m
  rw [← abs_eq_num_div_den, ← hself] at hnear htie
  refine ⟨hnear.trans hother, fun heq => ?_⟩
  obtain hmag | heven := htie (le_antisymm (heq ▸ hother) hnear)
  · have habs : |f32Value (f32OfBits sign m)| = |f32Value (toF32 v)| := by
      rw [toF32_eq, abs_f32Value_f32OfBits sign hm, abs_f32Value_f32OfBits _ (by omega), hmag]
    obtain h | rfl := eq_or_eq_zero_of_abs_eq habs heq
    · exact .inl h
    · exact .inr (by rw [toF32_zero]; rfl)
  · rw [toF32_eq]
    exact .inr (f32OfBits_lastBit _ (by omega) heven)

/-! ### The range of the audio path (R226, 43_oscillators.md R243, R249) -/

theorem pulseOut_muted {o : PulseOsc} (hmute : o.period.toNat < 8) (t : Rat) : pulseOut o t = 0 := if_pos hmute

theorem pulseOut_unmuted {o : PulseOsc} (hsound : 8 ≤ o.period.toNat) (t : Rat) :
    pulseOut o t = 1 ∨ pulseOut o t = -1 := by
  have hnomute : ¬ o.period.toNat < Config.pulseMute := Nat.not_lt.2 hsound
  rw [pulseOut, if_neg hnomute, pulseAt]
  split
  · exact .inl rfl
  · exact .inr rfl

theorem abs_pulseOut_le (o : PulseOsc) (t : Rat) : |pulseOut o t| ≤ 1 := by
  obtain hmute | hsound := Nat.lt_or_ge o.period.toNat 8
  · rw [pulseOut_muted hmute]
    norm_num
  · obtain h | h := pulseOut_unmuted hsound t <;> rw [h] <;> norm_num

theorem abs_triangleWave_le (x : Rat) : |triangleWave x| ≤ 1 := by
  have hnonneg : 0 ≤ frac x := Int.fract_nonneg x
  have hlt : frac x < 1 := Int.fract_lt_one x
  rw [triangleWave, abs_le]
  split <;> constructor <;> linarith

theorem abs_triangleOut_le (p : Period) (t : Rat) : |triangleOut p t| ≤ 1 := by
  unfold triangleOut
  split
  · norm_num
  · exact abs_triangleWave_le _

theorem abs_ite_zero_le {b : Bool} {v : Rat} (hv : |v| ≤ 1) : |if b then v else 0| ≤ 1 := by
  cases b
  · norm_num
  · exact hv

theorem abs_mixedAt_le (s : State) (t : Rat) : |mixedAt s t| ≤ 2355 / 100000 := by
  have hsq1 := abs_le.1 (abs_ite_zero_le (b := channelEnabled s 0) (abs_pulseOut_le s.sq1 t))
  have hsq2 := abs_le.1 (abs_ite_zero_le (b := channelEnabled s 1) (abs_pulseOut_le s.sq2 t))
  have htri := abs_le.1 (abs_ite_zero_le (b := channelEnabled s 2) (abs_triangleOut_le s.tri t))
  rw [mixedAt, mixFormula.1, abs_le]
  constructor <;> linarith

/-- Settles O52: every entry of a fill is a channel's output at some time, and every mixed value a mix of such outputs. -/
theorem mixedValuesBounded : Obligations.MixedValuesBounded := by
  refine ⟨fun o t0 rate n v hv => ?_, fun p t0 rate n v hv => ?_, fun s n v hv => ?_⟩
  · rw [pulseFill_eq_map] at hv
    obtain ⟨i, _, rfl⟩ := List.mem_map.1 hv
    exact ⟨fun hmute => pulseOut_muted hmute _, fun hsound => pulseOut_unmuted hsound _⟩
  · rw [triangleFill_eq_map] at hv
    obtain ⟨i, _, rfl⟩ := List.mem_map.1 hv
    exact abs_le.1 (abs_triangleOut_le p _)
  · rw [mixedValues_eq_map] at hv
    obtain ⟨i, _, rfl⟩ := List.mem_map.1 hv
    have hle := abs_mixedAt_le s (sampleTime (windowStart s.wm) s.rate.toNat i)
    exact ⟨(abs_le.1 hle).1, (abs_le.1 hle).2, f32Finite_toF32 (hle.trans (by norm_num))⟩

end Sys2Proof.Machine

/-!
PROOFS. The triangle oscillator (43_oscillators.md R249): its range in each quadrant, its continuity and the largest change
between two consecutive samples. The wave is 1 less the distance to the nearest crest, and the crests are at `4 * k + 1`.
-/
namespace Sys2Proof.Machine

/-! ### The range in each quadrant (R248, R249) -/

theorem triangleWave_of_quadrant_zero {x : Rat} (hq : x.floor % 4 = 0) : triangleWave x = frac x := by
  rw [triangleWave_eq, hq]
  rfl

theorem triangleWave_of_quadrant_one {x : Rat} (hq : x.floor % 4 = 1) : triangleWave x = 1 - frac x := by
  rw [triangleWave_eq, hq]
  rfl

theorem triangleWave_of_quadrant_two {x : Rat} (hq : x.floor % 4 = 2) : triangleWave x = -frac x := by
  rw [triangleWave_eq, hq]
  rfl

theorem triangleWave_of_quadrant_three {x : Rat} (hq : x.floor % 4 = 3) : triangleWave x = -1 + frac x := by
  rw [triangleWave_eq, hq]
  rfl

theorem frac_nonneg (x : Rat) : 0 ≤ frac x := Int.fract_nonneg x

theorem frac_lt_one (x : Rat) : frac x < 1 := Int.fract_lt_one x

theorem triangleWave_quadrant_range (x : Rat) :
    (x.floor % 4 = 0 → 0 ≤ triangleWave x ∧ triangleWave x < 1) ∧
    (x.floor % 4 = 1 → 0 < triangleWave x ∧ triangleWave x ≤ 1) ∧
    (x.floor % 4 = 2 → -1 < triangleWave x ∧ triangleWave x ≤ 0) ∧
    (x.floor % 4 = 3 → -1 ≤ triangleWave x ∧ triangleWave x < 0) := by
  refine ⟨fun hq => ?_, fun hq => ?_, fun hq => ?_, fun hq => ?_⟩
  · rw [triangleWave_of_quadrant_zero hq]
    exact ⟨frac_nonneg x, frac_lt_one x⟩
  · rw [triangleWave_of_quadrant_one hq]
    exact ⟨sub_pos.2 (frac_lt_one x), sub_le_self 1 (frac_nonneg x)⟩
  · rw [triangleWave_of_quadrant_two hq]
    exact ⟨neg_lt_neg (frac_lt_one x), neg_nonpos.2 (frac_nonneg x)⟩
  · rw [triangleWave_of_quadrant_three hq]
    exact ⟨le_add_of_nonneg_right (frac_nonneg x), by linarith [frac_lt_one x]⟩

/-! ### The wave by its nearest crest -/

/-- The crest nearest to a scaled phase, by the number of its quadrant counted from 0. -/
theorem round_crest (x : Rat) : round ((x - 1) / 4) = (x.floor + 1) / 4 := by
  have hshift : (x - 1) / 4 + 1 / 2 = (x + 1) / (4 : ℕ) := by
    push_cast
    ring
  rw [round_eq, hshift, Int.floor_div_natCast, Int.floor_add_one]
  rfl

theorem triangleWave_eq_sub_crest (x : Rat) : triangleWave x = 1 - |x - 1 - 4 * round ((x - 1) / 4)| := by
  have hnonneg := frac_nonneg x
  have hlt := frac_lt_one x
  have hphase (k r : ℤ) (hfloor : x.floor = 4 * k + r) : x = 4 * k + r + frac x := by
    rw [frac, hfloor]
    push_cast
    ring
  rw [round_crest]
  obtain hq | hq | hq | hq : x.floor % 4 = 0 ∨ x.floor % 4 = 1 ∨ x.floor % 4 = 2 ∨ x.floor % 4 = 3 := by omega
  · have hx := hphase ((x.floor + 1) / 4) 0 (by omega)
    rw [triangleWave_of_quadrant_zero hq, abs_of_nonpos] <;> linarith
  · have hx := hphase ((x.floor + 1) / 4) 1 (by omega)
    rw [triangleWave_of_quadrant_one hq, abs_of_nonneg] <;> linarith
  · have hx := hphase ((x.floor + 1) / 4) 2 (by omega)
    rw [triangleWave_of_quadrant_two hq, abs_of_nonneg] <;> linarith
  · have hx := hphase ((x.floor + 1) / 4) (-1) (by omega)
    rw [triangleWave_of_quadrant_three hq, abs_of_nonpos] <;> linarith

/-- The wave is at or above the tent of slope 1 under every crest. -/
theorem one_sub_abs_le_triangleWave (x : Rat) (k : ℤ) : 1 - |x - 1 - 4 * k| ≤ triangleWave x := by
  have hscale (j : ℤ) : |x - 1 - 4 * j| = 4 * |(x - 1) / 4 - j| := by
    rw [show x - 1 - 4 * (j : Rat) = 4 * ((x - 1) / 4 - j) by ring, abs_mul, abs_of_pos four_pos]
  rw [triangleWave_eq_sub_crest, hscale, hscale]
  linarith [round_le ((x - 1) / 4) k]

/-! ### Continuity and the sample step -/

theorem triangleWave_sub_le (x y : Rat) : triangleWave x - triangleWave y ≤ |x - y| := by
  have hcrest := triangleWave_eq_sub_crest x
  have htent := one_sub_abs_le_triangleWave y (round ((x - 1) / 4))
  have hdist := abs_sub_abs_le_abs_sub (y - 1 - 4 * (round ((x - 1) / 4) : Rat)) (x - 1 - 4 * round ((x - 1) / 4))
  rw [sub_sub_sub_cancel_right, sub_sub_sub_cancel_right, abs_sub_comm y x] at hdist
  linarith

theorem abs_triangleWave_sub_le (x y : Rat) : |triangleWave x - triangleWave y| ≤ |x - y| :=
  abs_sub_le_iff.2 ⟨triangleWave_sub_le x y, abs_sub_comm x y ▸ triangleWave_sub_le y x⟩

theorem sampleTime_succ (t0 : Rat) (rate i : Nat) :
    sampleTime t0 rate (i + 1) = sampleTime t0 rate i + 1 / rate := by
  rw [sampleTime, sampleTime]
  push_cast
  ring

/-- The change of the scaled phase from one sample to the next (R249). -/
theorem scaledPhase_succ_sub (p : Period) (t0 : Rat) (rate i : Nat) :
    sampleTime t0 rate (i + 1) / trianglePeriod p * 4 - sampleTime t0 rate i / trianglePeriod p * 4 =
      4 * 1789773 / ((rate : Rat) * 32 * ((p.toNat : Rat) + 1)) := by
  have hstep : (1 : Rat) / rate = 1789773 / (rate * 1789773) := by
    rw [div_mul_cancel_right₀ (by norm_num), one_div]
  rw [← div_trianglePeriod, ← hstep, sampleTime_succ]
  ring

/-- Settles O53: the wave is 1 less the distance to the nearest crest, which changes by no more than the scaled phase, and
the scaled phase grows by the quoted step from one sample to the next. -/
theorem triangleIsContinuous : Obligations.TriangleIsContinuous := by
  refine ⟨triangleWave_quadrant_range, abs_triangleWave_sub_le, fun p t0 rate i _ => ?_⟩
  have hstep_nonneg : (0 : Rat) ≤ 4 * 1789773 / ((rate : Rat) * 32 * ((p.toNat : Rat) + 1)) := by positivity
  calc |triangleAt p (sampleTime t0 rate (i + 1)) - triangleAt p (sampleTime t0 rate i)|
      ≤ |sampleTime t0 rate (i + 1) / trianglePeriod p * 4 - sampleTime t0 rate i / trianglePeriod p * 4| :=
        abs_triangleWave_sub_le _ _
    _ = 4 * 1789773 / ((rate : Rat) * 32 * ((p.toNat : Rat) + 1)) := by
        rw [scaledPhase_succ_sub, abs_of_nonneg hstep_nonneg]

end Sys2Proof.Machine

/-!
PROOFS. The Sample Buffer FIFO of 44_sample_buffer_fifo.md: its four requests in closed form (R270 to R274), the fixed rate
(R275), and the ledger of a run (R277 to R279).
-/
namespace Sys2Proof.Machine

/-! ### FIFONEW and FIFOCLR (R270, R273) -/

/-- `FIFONEW` with no FIFO and a rate in range. -/
theorem exec_fifonew {c : Cycle} {s : State} (hsim : s.cur.agent = .sim) (hno : s.fexists = false) (hpos : c ≠ 0)
    (hlt : c.toNat < 2 ^ 32) :
    exec (.fifonew c) s = .next (State.respond
      { s with fexists := true, rate := c.setWidth 32, q := [] } Response.empty) := by
  have hgood : ¬ (c = 0 ∨ 2 ^ 32 ≤ c.toNat) := not_or.2 ⟨hpos, by omega⟩
  rw [exec, execFifonew, if_neg (ne_true_of_eq_false hno), if_neg hgood]
  exact perform_ok hsim

/-- Settles O56: an existing FIFO fails the body first, and then a rate out of range. -/
theorem fifoCreation : Obligations.FifoCreation := by
  intro c s hsim
  refine ⟨fun hexists => ?_, fun hno hbad => ?_, fun hno hpos hlt => ?_⟩
  · rw [exec, execFifonew, if_pos hexists]
    exact perform_error hsim
  · have hbad : c = 0 ∨ 2 ^ 32 ≤ c.toNat := hbad.imp_left fun h => BitVec.eq_of_toNat_eq h
    rw [exec, execFifonew, if_neg (ne_true_of_eq_false hno), if_pos hbad]
    exact perform_error hsim
  · have hne : c ≠ 0 := fun h => by simp [h] at hpos
    rw [exec_fifonew hsim hno hne hlt, BitVec.ofNat_toNat]
    rfl

theorem exec_fifoclr {s : State} (hsim : s.cur.agent = .sim) (hexists : s.fexists = true) :
    exec .fifoclr s = .next (State.respond { s with q := [] } Response.empty) := by
  rw [exec, execFifoclr, if_pos hexists]
  exact perform_ok hsim

/-- Settles O59: the body of `FIFOCLR` branches on the FIFO's existence alone. -/
theorem fifoClear : Obligations.FifoClear := by
  intro s hsim
  refine ⟨fun hno => ?_, exec_fifoclr hsim⟩
  rw [exec, execFifoclr, if_neg (ne_true_of_eq_false hno)]
  exact perform_error hsim

/-! ### FIFOWR (R271, R274) -/

/-- The events of an append that drops `dropped` samples (60_exceptions.md R300). -/
def overflowEvents (dropped : Nat) : List Event := if dropped = 0 then [] else [.overflow dropped]

/-- An append to an existing FIFO in closed form. -/
theorem fifoAppend_eq (xs : List Sample) {s : State} (hexists : s.fexists = true) :
    fifoAppend xs s = .ok (overflowEvents (boundQueue s.fifoDepth (s.q ++ xs)).2,
      { s with q := (boundQueue s.fifoDepth (s.q ++ xs)).1 }) := if_pos hexists

theorem exec_fifowr (xs : List Sample) {s : State} (hsim : s.cur.agent = .sim) (hexists : s.fexists = true) :
    exec (.fifowr xs) s = .next (State.respond { s with q := (boundQueue s.fifoDepth (s.q ++ xs)).1 }
      (Response.events (overflowEvents (boundQueue s.fifoDepth (s.q ++ xs)).2))) := by
  rw [exec, execFifowr, fifoAppend_eq xs hexists]
  exact perform_ok hsim

/-- Settles O57: the closed form of the append, at each kind of depth. -/
theorem fifoAppendAndCapacity : Obligations.FifoAppendAndCapacity := by
  intro xs s hsim
  refine ⟨fun hno => ?_, fun hexists hdepth => ?_, fun d hexists hdepth => ⟨(s.q ++ xs).drop ((s.q ++ xs).length - d), ?_,
    List.drop_suffix _ _, ?_⟩⟩
  · rw [exec, execFifowr, fifoAppend, if_neg (ne_true_of_eq_false hno)]
    exact perform_error hsim
  · rw [exec_fifowr xs hsim hexists, hdepth]
    rfl
  · rw [exec_fifowr xs hsim hexists, hdepth]
    simp only [boundQueue, overflowEvents, List.length_append, Nat.sub_eq_zero_iff_le]
    rfl
  · rw [length_drop_length_sub, List.length_append]

/-! ### FIFORD (R272) -/

/-- What a drain of `n` samples answers: the front of the queue, then zeros. -/
def drained (n : Nat) (q : List Sample) : List Sample := q.take n ++ List.replicate (n - q.length) 0

theorem length_drained (n : Nat) (q : List Sample) : (drained n q).length = n := by
  rw [drained, List.length_append, List.length_take, List.length_replicate]
  omega

theorem getElem?_drained {n k : Nat} (q : List Sample) (hk : k < n) : (drained n q)[k]? = some (q.getD k 0) := by
  have hlen : (q.take n).length = min n q.length := List.length_take
  by_cases hq : k < q.length
  · rw [drained, List.getElem?_append_left (by omega), List.getElem?_take_of_lt hk, List.getElem?_eq_getElem hq,
      List.getD_eq_getElem _ _ hq]
  · rw [drained, List.getElem?_append_right (by omega), List.getElem?_replicate, if_pos (by omega),
      List.getD_eq_default _ _ (by omega)]

/-- `FIFORD` from an existing FIFO. -/
theorem exec_fiford (n : BitVec 32) {s : State} (haudio : s.cur.agent = .audio) (hexists : s.fexists = true) :
    exec (.fiford n) s = .next (State.respond { s with q := s.q.drop n.toNat }
      { r := 0, out := drained n.toNat s.q,
        ev := if s.q.length < n.toNat then [.underrun n.toNat s.q.length] else [] }) := by
  rw [exec, execFiford, if_pos hexists]
  refine (perform_ok haudio).trans ?_
  by_cases hlen : s.q.length < n.toNat
  · have hk : min n.toNat s.q.length = s.q.length := min_eq_right hlen.le
    simp only [hk, if_pos hlen, drained, List.take_of_length_le hlen.le, List.take_length, List.drop_length,
      List.drop_of_length_le hlen.le]
  · have hk : min n.toNat s.q.length = n.toNat := min_eq_left (by omega)
    have hpad : n.toNat - s.q.length = 0 := by omega
    simp only [hk, if_neg hlen, lt_irrefl, if_false, drained, hpad, Nat.sub_self]

/-- Settles O58: the closed form of the drain, read off sample by sample. -/
theorem fifoDrain : Obligations.FifoDrain := by
  intro n s haudio
  refine ⟨fun hno => ?_, fun hexists => ⟨drained n.toNat s.q, exec_fiford n haudio hexists, length_drained .., fun k hk =>
    getElem?_drained s.q hk⟩⟩
  rw [exec, execFiford, if_neg (ne_true_of_eq_false hno)]
  exact perform_error haudio

/-! ### The rate and the parameters (R275, log entries 7, 8) -/

/-- A completed request keeps both parameters, and the FIFO with its rate once there is one: `FIFONEW`, their one writer,
completes only with no FIFO. -/
theorem parameters_of_effect {i : Instr} {s s' : State} (heff : Effect i s s') :
    s'.fifoDepth = s.fifoDepth ∧ s'.conversion = s.conversion ∧
      (s.fexists = true → s'.fexists = true ∧ s'.rate = s.rate) := by
  by_cases hflush : flushes i = true
  · rw [frame_of_flushes hflush heff]
    simp
  cases i with
  | fifonew c =>
    obtain ⟨hno, _, _, rfl⟩ := heff
    simp [hno]
  | _ => simp_all [Effect, flushes, Instr.command, fifoAppend_ok_iff]

/-- Settles O17: idling, issuing a request and recording a fault or a response leave these fields, so the effect of the
request decides. -/
theorem sampleRateNeverChanges : Obligations.SampleRateNeverChanges := by
  intro s t hstep
  obtain ⟨_, ⟨_, rfl⟩ | ⟨r, rest, _, ⟨e, _, rfl⟩ | ⟨i, _, hexec⟩⟩⟩ := step_next hstep
  · simp
  · simp
  · obtain ⟨k, rfl⟩ | ⟨resp, s', rfl, heff⟩ := exec_effect hexec
    · simp
    · have hkept := parameters_of_effect heff
      exact hkept

/-! ### What an answer says about its request -/

/-- An answered request has completed with its effect: a fault gives no response. -/
theorem effect_of_answer {i : Instr} {s t : State} {r : Response} (hexec : exec i s = .next t)
    (hresp : t.resp = some r) : ∃ s', t = s'.respond r ∧ Effect i s s' := by
  obtain ⟨k, rfl⟩ | ⟨r', s', rfl, heff⟩ := exec_effect hexec
  · cases hresp
  · cases hresp
    exact ⟨s', rfl, heff⟩

/-- An answered request was issued by the agent its row names (30_encoding.md R96). -/
theorem agent_of_answer {i : Instr} {s t : State} {r : Response} (hwf : i.wellFormed = true)
    (hexec : exec i s = .next t) (hresp : t.resp = some r) : s.cur.agent = agentOf i := by
  by_contra hwrong
  obtain ⟨body, hbody⟩ := exec_eq_perform hwf s
  cases hexec.symm.trans (hbody.trans (perform_wrong_agent hwrong body))
  cases hresp

/-- The counter had room for the ticks of an answered request (10_state.md R30). -/
theorem room_of_answer {i : Instr} {s t : State} {r : Response} (hsim : s.cur.agent = .sim)
    (hexec : exec i s = .next t) (hresp : t.resp = some r) : s.cycles.toNat + ticksOf i < 2 ^ 64 := by
  by_contra hroom
  cases hexec.symm.trans (exec_overflow hsim (Nat.le_of_not_lt hroom))
  cases hresp

/-! ### Which events a request can answer -/

/-- No sample was dropped on the way. -/
def NoOverflow (ev : List Event) : Prop := ∀ d, Event.overflow d ∉ ev

theorem noOverflow_nil : NoOverflow [] := fun _ => List.not_mem_nil

theorem noOverflow_readEvents (addr : Addr) : NoOverflow (readEvents addr) := by
  intro d
  unfold readEvents
  split <;> simp

theorem noOverflow_writeEvents (addr : Addr) (v : Byte) : NoOverflow (writeEvents addr v) := by
  intro d
  unfold writeEvents
  split <;> simp

theorem NoOverflow.append {e1 e2 : List Event} (h1 : NoOverflow e1) (h2 : NoOverflow e2) : NoOverflow (e1 ++ e2) :=
  fun d hmem => (List.mem_append.1 hmem).elim (h1 d) (h2 d)

theorem overflowed_eq_nil {ev : List Event} (h : NoOverflow ev) (q : List Sample) : overflowed ev q = [] := by
  unfold overflowed
  split
  · exact absurd (List.mem_singleton_self _) (h _)
  · rfl

/-- The response of a request is the one of its closed form. -/
theorem noOverflow_of_closed_form {i : Instr} {s s' t : State} {r r' : Response}
    (hexec : exec i s = .next t) (hresp : t.resp = some r) (hclosed : exec i s = .next (s'.respond r'))
    (hev : NoOverflow r'.ev) : NoOverflow r.ev := by
  cases hclosed.symm.trans hexec
  cases hresp
  exact hev

/-- The requests on an existing FIFO (R279). -/
def IsFifoRequest (i : Instr) : Prop := (∃ xs, i = .fifowr xs) ∨ (∃ n, i = .fiford n) ∨ i = .fifoclr

/-- Every other request that does not flush keeps the queue; `FIFONEW` creates an empty one where there was none. -/
theorem queue_of_effect {i : Instr} {s s' : State} (hinv : Invariant s) (hflush : flushes i = false)
    (hother : ¬ IsFifoRequest i) (heff : Effect i s s') : s'.q = s.q := by
  cases i with
  | fifonew c =>
    obtain ⟨hno, _, _, rfl⟩ := heff
    exact (hinv.queue hno).symm
  | _ => simp_all [IsFifoRequest, Effect, flushes, Instr.command]

/-- Every other request that does not flush answers no overflow: its events are those of its bus accesses. -/
theorem noOverflow_of_answer {i : Instr} {s t : State} {r : Response} (hflush : flushes i = false)
    (hother : ¬ IsFifoRequest i) (hwf : i.wellFormed = true) (hexec : exec i s = .next t) (hresp : t.resp = some r) :
    NoOverflow r.ev := by
  have hsim : s.cur.agent = .sim :=
    (agent_of_answer hwf hexec hresp).trans (agentOf_of_ne_fiford fun n hn => hother (.inr (.inl ⟨n, hn⟩)))
  have hroom := room_of_answer hsim hexec hresp
  obtain ⟨s', -, heff⟩ := effect_of_answer hexec hresp
  cases i with
  | rd8 a =>
    exact noOverflow_of_closed_form hexec hresp (exec_rd8 a hsim (ne_cycleMax_of_room hroom)) (noOverflow_readEvents _)
  | wr8 a v =>
    exact noOverflow_of_closed_form hexec hresp (exec_wr8 a v hsim (ne_cycleMax_of_room hroom))
      (noOverflow_writeEvents _ _)
  | rd16 a =>
    exact noOverflow_of_closed_form hexec hresp (exec_rd16 a hsim hroom)
      ((noOverflow_readEvents _).append (noOverflow_readEvents _))
  | wr16 a v =>
    exact noOverflow_of_closed_form hexec hresp (exec_wr16 a v hsim hroom)
      ((noOverflow_writeEvents _ _).append (noOverflow_writeEvents _ _))
  | fetch =>
    exact noOverflow_of_closed_form hexec hresp (exec_fetch hsim (ne_cycleMax_of_room hroom)) (noOverflow_readEvents _)
  | push8 v =>
    exact noOverflow_of_closed_form hexec hresp (exec_push8 v hsim (ne_cycleMax_of_room hroom))
      (noOverflow_writeEvents _ _)
  | pop8 => exact noOverflow_of_closed_form hexec hresp (exec_pop8 hsim (ne_cycleMax_of_room hroom)) noOverflow_nil
  | push16 v => exact noOverflow_of_closed_form hexec hresp (exec_push16 v hsim hroom) noOverflow_nil
  | pop16 => exact noOverflow_of_closed_form hexec hresp (exec_pop16 hsim hroom) noOverflow_nil
  | reset | geta | seta | getx | setx | gety | sety | getsp | setsp | getpc | setpc | getp | setp | getcyc =>
    exact noOverflow_of_closed_form hexec hresp (perform_ok hsim) noOverflow_nil
  | getf f | setf f b | toggle ch =>
    have hlegal := heff.1
    exact noOverflow_of_closed_form hexec hresp ((if_neg (ne_true_of_eq_false hlegal)).trans (perform_ok hsim)) noOverflow_nil
  | apuinit attach h c =>
    have hok : attach = false ∨ s.fexists = true := by
      obtain ⟨hattach, -⟩ := heff
      cases attach <;> simp_all
    cases hexec.symm.trans ((orchestratorConstruction attach h c s hsim).2 hok)
    cases hresp
    exact noOverflow_nil
  | fifonew c =>
    obtain ⟨hno, hpos, hlt, -⟩ := heff
    exact noOverflow_of_closed_form hexec hresp (exec_fifonew hsim hno hpos hlt) noOverflow_nil
  | fifowr xs => exact absurd (.inl ⟨xs, rfl⟩) hother
  | fiford n => exact absurd (.inr (.inl ⟨n, rfl⟩)) hother
  | fifoclr => exact absurd (.inr (.inr rfl)) hother
  | _ => cases hflush

/-! ### The ledger of one answered request (R278) -/

theorem samplesOperand_of_ne_fifowr {i : Instr} (h : ∀ xs, i ≠ .fifowr xs) : samplesOperand i = [] := by
  cases i with
  | fifowr xs => exact absurd rfl (h xs)
  | _ => rfl

theorem departed_of_append {i : Instr} (hdrain : ∀ n, i ≠ .fiford n) (hclear : i ≠ .fifoclr) (s : State) (r : Response) :
    departed i s r = overflowed r.ev (s.q ++ appended i s) := by
  cases i with
  | fiford n => exact absurd rfl (hdrain n)
  | fifoclr => exact absurd rfl hclear
  | _ => rfl

theorem departed_fiford (n : BitVec 32) (s : State) (r : Response) :
    departed (.fiford n) s r = (received r).map .received := rfl

theorem departed_fifoclr (s : State) (r : Response) : departed .fifoclr s r = s.q.map .dropped := rfl

theorem map_sample_received (xs : List Sample) : (xs.map Departure.received).map Departure.sample = xs := by
  simp [Function.comp_def, Departure.sample]

theorem map_sample_dropped (xs : List Sample) : (xs.map Departure.dropped).map Departure.sample = xs := by
  simp [Function.comp_def, Departure.sample]

theorem appended_of_not_flushes {i : Instr} (hflush : flushes i = false) (s : State) :
    appended i s = samplesOperand i := by
  simp [appended, hflush]

theorem boundQueue_fst (depth : Option Nat) (q : List Sample) :
    (boundQueue depth q).1 = q.drop (boundQueue depth q).2 := by
  cases depth <;> rfl

/-- What an overflow event says was dropped is what dropping took from the front. -/
theorem overflowed_append_drop (n : Nat) (q : List Sample) :
    (overflowed (overflowEvents n) q).map Departure.sample ++ q.drop n = q := by
  rw [overflowed_sample]
  by_cases hn : n = 0 <;> simp [overflowEvents, hn]

/-- An append: what was queued and what is appended is what it drops, then what it leaves queued. -/
theorem balance_of_fifoAppend {xs : List Sample} {s s' : State} {ev : List Event} (h : fifoAppend xs s = .ok (ev, s')) :
    s.q ++ xs = (overflowed ev (s.q ++ xs)).map Departure.sample ++ s'.q := by
  obtain ⟨_, rfl, rfl⟩ := fifoAppend_ok h
  rw [boundQueue_fst]
  exact (overflowed_append_drop _ _).symm

/-- A flush is an append of its samples, if it has any and is attached. -/
theorem balance_of_flush {f : Rat → Sample} {c : Cycle} {s s' : State} {ev : List Event}
    (h : flush f c s = .ok (ev, s')) (xs : List Sample) (hxs : xs = if s.att then flushSamples f c s else []) :
    s.q ++ xs = (overflowed ev (s.q ++ xs)).map Departure.sample ++ s'.q := by
  obtain ⟨_, ⟨rfl, rfl, hcount⟩ | ⟨hatt, _, s1, happend, rfl⟩⟩ := flush_ok h
  · have hnone : xs = [] := by
      rw [hxs]
      split
      · exact List.eq_nil_of_length_eq_zero ((flushSamples_length ..).trans (hcount ‹_›))
      · rfl
    simp [hnone, overflowed]
  · have hbalance := balance_of_fifoAppend happend
    rwa [hxs, if_pos hatt]

/-- AUDIO receives the front of the queue, and no pad zero (R272). -/
theorem received_drained (n : Nat) (q : List Sample) :
    received { r := 0, out := drained n q, ev := if q.length < n then [.underrun n q.length] else [] } = q.take n := by
  by_cases hlen : q.length < n
  · simp [received, drained, hlen, List.take_of_length_le hlen.le]
  · have hpad : n - q.length = 0 := by omega
    simp [received, drained, hlen, hpad]

/-- A request on an existing FIFO completes, its ledger balances, and what leaves an unbounded one without a `FIFOCLR` is
received (R274, R278, R279). -/
theorem exec_fifoRequest {i : Instr} {s : State} (hi : IsFifoRequest i) (hagent : s.cur.agent = agentOf i)
    (hexists : s.fexists = true) :
    ∃ q r, exec i s = .next (State.respond { s with q := q } r) ∧
      s.q ++ samplesOperand i = (departed i s r).map Departure.sample ++ q ∧
      (s.fifoDepth = none → i ≠ .fifoclr → ∀ d ∈ departed i s r, ∃ x, d = .received x) := by
  obtain ⟨xs, rfl⟩ | ⟨n, rfl⟩ | rfl := hi
  · refine ⟨_, _, exec_fifowr xs hagent hexists, ?_, fun hdepth _ => ?_⟩
    · have hbalance := balance_of_fifoAppend (fifoAppend_eq xs hexists)
      rwa [departed_of_append (by simp) (by simp), appended_of_not_flushes rfl]
    · rw [departed_of_append (by simp) (by simp), hdepth]
      exact nofun
  · refine ⟨_, _, exec_fiford n hagent hexists, ?_, fun _ _ => ?_⟩
    · rw [departed_fiford, received_drained, map_sample_received, List.take_append_drop]
      exact List.append_nil _
    · simp [departed_fiford]
  · refine ⟨_, _, exec_fifoclr hagent hexists, ?_, fun _ hne => absurd rfl hne⟩
    rw [departed_fifoclr, map_sample_dropped]
    rfl

/-- A request on the FIFO is answered only if there is one. -/
theorem fexists_of_fifoRequest_effect {i : Instr} {s s' : State} (hi : IsFifoRequest i) (heff : Effect i s s') :
    s.fexists = true := by
  obtain ⟨xs, rfl⟩ | ⟨n, rfl⟩ | rfl := hi
  · exact (fifoAppend_ok_iff.1 heff).1
  · exact heff.1
  · exact heff.1

theorem flushes_of_fifoRequest {i : Instr} (hi : IsFifoRequest i) : flushes i = false := by
  obtain ⟨xs, rfl⟩ | ⟨n, rfl⟩ | rfl := hi <;> rfl

/-- A flushing request: its ledger is that of its flush, and the register function after it keeps the queue. -/
theorem balance_of_flushes {i : Instr} {s t : State} {r : Response} (hflush : flushes i = true)
    (hsim : s.cur.agent = .sim) (hexec : exec i s = .next t) (hresp : t.resp = some r) :
    s.q ++ appended i s = (departed i s r).map Departure.sample ++ t.q := by
  have hdrain : ∀ n, i ≠ .fiford n := by rintro n rfl; cases hflush
  have hclear : i ≠ .fifoclr := by rintro rfl; cases hflush
  have happended : appended i s = if s.att then flushSamples (convert s.conversion) (cycleOperand i) s else [] := by
    have hnone := samplesOperand_of_ne_fifowr (i := i) (by rintro xs rfl; cases hflush)
    simp [appended, hflush, hnone]
  obtain ⟨s', rfl, heff⟩ := effect_of_answer hexec hresp
  obtain ⟨ev, s1, reg, v, hok, rfl, _⟩ := effect_of_flushes hflush heff
  obtain ⟨register, hwrite⟩ := exec_eq_writeRegister_of_flushes hflush s
  have hanswer := hexec.symm.trans (hwrite.trans (writeRegister_of_flush register hsim hok))
  have hev : r = Response.events ev := by
    have h := congrArg State.resp (Host.Outcome.next.inj hanswer)
    exact Option.some.inj h
  rw [departed_of_append hdrain hclear, hev, State.respond_q, dispatchReg_frame]
  exact balance_of_flush hok _ happended

/-- The ledger of every answered request balances. -/
theorem balance_of_answer {i : Instr} {s t : State} {r : Response} (hinv : Invariant s) (hwf : i.wellFormed = true)
    (hexec : exec i s = .next t) (hresp : t.resp = some r) :
    s.q ++ appended i s = (departed i s r).map Departure.sample ++ t.q := by
  have hagent := agent_of_answer hwf hexec hresp
  obtain ⟨s', ht, heff⟩ := effect_of_answer hexec hresp
  by_cases hfifo : IsFifoRequest i
  · obtain ⟨q, r', hclosed, hbalance, -⟩ := exec_fifoRequest hfifo hagent (fexists_of_fifoRequest_effect hfifo heff)
    rw [appended_of_not_flushes (flushes_of_fifoRequest hfifo)]
    cases hclosed.symm.trans hexec
    cases hresp
    exact hbalance
  have hdrain : ∀ n, i ≠ .fiford n := fun n hn => hfifo (.inr (.inl ⟨n, hn⟩))
  cases hflush : flushes i with
  | true => exact balance_of_flushes hflush (hagent.trans (agentOf_of_ne_fiford hdrain)) hexec hresp
  | false =>
    have hnone := samplesOperand_of_ne_fifowr fun xs hxs => hfifo (.inl ⟨xs, hxs⟩)
    have hquiet := overflowed_eq_nil (noOverflow_of_answer hflush hfifo hwf hexec hresp) (s.q ++ appended i s)
    have hqueue := queue_of_effect hinv hflush hfifo heff
    rw [departed_of_append hdrain fun h => hfifo (.inr (.inr h)), hquiet, appended_of_not_flushes hflush, hnone, ht,
      State.respond_q, hqueue]
    simp

/-! ### The ledger of a run (R277 to R279) -/

@[simp] theorem stepLedger_raise (s s' : State) (k : FaultKind) : stepLedger s (s'.raise k) = ([], []) := by
  unfold stepLedger
  rw [State.raise_resp]
  cases s.requests <;> rfl

theorem stepLedger_of_idle {s : State} (h : s.requests = []) (t : State) : stepLedger s t = ([], []) := by
  unfold stepLedger
  rw [h]

theorem stepLedger_of_answer {s t : State} {req : Request} {rest : List Request} {i : Instr} {r : Response}
    (hreq : s.requests = req :: rest) (hdec : decode req = .ok i) (hresp : t.resp = some r) :
    stepLedger s t = (appended i s, departed i s r) := by
  simp only [stepLedger, hreq, hresp, hdec]

/-- The ledger of every step balances: a fault keeps the queue, and so does an idle step. -/
theorem balance_of_step {s t : State} (hinv : Invariant s) (hstep : step s = .next t) :
    s.q ++ (stepLedger s t).1 = (stepLedger s t).2.map Departure.sample ++ t.q := by
  obtain ⟨_, ⟨hreq, rfl⟩ | ⟨req, rest, hreq, ⟨e, _, rfl⟩ | ⟨i, hdec, hexec⟩⟩⟩ := step_next hstep
  · simp [stepLedger_of_idle hreq]
  · simp
  obtain ⟨k, rfl⟩ | ⟨r, s', rfl, _⟩ := exec_effect hexec
  · simp
  · have hissued : Invariant { s with requests := rest, cur := req } := hinv.of_frame rfl rfl rfl rfl rfl rfl
    rw [stepLedger_of_answer hreq hdec rfl]
    have hbalance := balance_of_answer hissued (isReadFrom_of_decode hdec).wellFormed hexec rfl
    exact hbalance

/-- A run of one more step enters the step's ledger before the rest. -/
theorem runLedger_succ_eq_some_iff {k : Nat} {s u : State} {ins : List Sample} {outs : List Departure} :
    runLedger (k + 1) s = some (ins, outs, u) ↔
      ∃ t ins' outs', step s = .next t ∧ runLedger k t = some (ins', outs', u) ∧
        ins = (stepLedger s t).1 ++ ins' ∧ outs = (stepLedger s t).2 ++ outs' := by
  rw [runLedger]
  cases step s with
  | next t => simp [eq_comm]
  | fault | refused => simp

/-- The ledger of a run balances, by induction on its steps: the samples of the initial queue and those appended are, in
order, those that left and those still queued. -/
theorem balance_of_runLedger (k : Nat) : ∀ {s t : State} {ins : List Sample} {outs : List Departure}, Invariant s →
    runLedger k s = some (ins, outs, t) → s.q ++ ins = outs.map Departure.sample ++ t.q := by
  induction k with
  | zero =>
    intro s t ins outs _ hrun
    cases hrun
    simp
  | succ k ih =>
    intro s u ins outs hinv hrun
    obtain ⟨t, ins', outs', hstep, hrest, rfl, rfl⟩ := runLedger_succ_eq_some_iff.1 hrun
    have hfirst := balance_of_step hinv hstep
    have hlater := ih (stepKeepsInvariant s t hinv hstep) hrest
    rw [← List.append_assoc, hfirst, List.append_assoc, hlater, List.map_append, List.append_assoc]

theorem decode_encode_fifoRequest {i : Instr} (hi : IsFifoRequest i) : decode (encode i) = .ok i := by
  have hrow : i.wellFormed = true ∧ i.command = i := by
    obtain ⟨xs, rfl⟩ | ⟨n, rfl⟩ | rfl := hi <;> exact ⟨rfl, rfl⟩
  have hdec := decode_of_isReadFrom (isReadFrom_encode hrow.1)
  rwa [hrow.2] at hdec

/-- A step that issues a request on an existing FIFO: it completes, whatever the queue holds (R277, R279). -/
theorem step_fifoRequest {i : Instr} {s : State} {rest : List Request} (hi : IsFifoRequest i) (hfault : s.fault = none)
    (hexists : s.fexists = true) (hreq : s.requests = encode i :: rest) :
    ∃ t, step s = .next t ∧ t.fault = none ∧ t.fexists = true ∧ t.requests = rest ∧ t.fifoDepth = s.fifoDepth ∧
      (stepLedger s t).1 = samplesOperand i ∧
      (s.fifoDepth = none → i ≠ .fifoclr → ∀ d ∈ (stepLedger s t).2, ∃ x, d = .received x) := by
  have hdec := decode_encode_fifoRequest hi
  obtain ⟨q, r, hexec, -, hreceived⟩ :=
    exec_fifoRequest (s := { s with requests := rest, cur := encode i }) hi rfl hexists
  refine ⟨_, (stepRunsDecodedInstruction s _ _ _ hfault hreq hdec).trans hexec, hfault, hexists, rfl, rfl, ?_⟩
  rw [stepLedger_of_answer hreq hdec rfl]
  exact ⟨appended_of_not_flushes (flushes_of_fifoRequest hi) s, hreceived⟩

/-- A script of requests on an existing FIFO runs to its end, by induction on the script. -/
theorem runLedger_of_script (script : List Instr) : ∀ s : State, (∀ i ∈ script, IsFifoRequest i) → s.fault = none →
    s.fexists = true → s.requests = script.map encode →
    ∃ ins outs t, runLedger script.length s = some (ins, outs, t) ∧ t.fault = none ∧ t.requests = [] ∧
      ins = (script.map samplesOperand).flatten ∧
      (s.fifoDepth = none → Instr.fifoclr ∉ script → ∀ d ∈ outs, ∃ x, d = .received x) := by
  induction script with
  | nil =>
    intro s _ hfault _ hreq
    exact ⟨[], [], s, rfl, hfault, hreq, rfl, nofun⟩
  | cons i script ih =>
    intro s hscript hfault hexists hreq
    obtain ⟨hi, hscript⟩ := List.forall_mem_cons.1 hscript
    obtain ⟨t, hstep, htfault, htexists, htreq, htdepth, hins, houts⟩ := step_fifoRequest hi hfault hexists hreq
    obtain ⟨ins', outs', u, hrun, hufault, hureq, rfl, houts'⟩ := ih t hscript htfault htexists htreq
    refine ⟨_, _, u, runLedger_succ_eq_some_iff.2 ⟨t, _, _, hstep, hrun, rfl, rfl⟩, hufault, hureq, ?_, ?_⟩
    · rw [hins, List.map_cons, List.flatten_cons]
    · intro hdepth hclear d hd
      obtain ⟨hne, hclear⟩ := not_or.1 (mt List.mem_cons.2 hclear)
      obtain hd | hd := List.mem_append.1 hd
      · exact houts hdepth (Ne.symm hne) d hd
      · exact houts' (htdepth.trans hdepth) hclear d hd

/-- Settles O60: every step balances its ledger, and a request on an existing FIFO completes whatever the queue holds. -/
theorem fifoOrderAndProgress : Obligations.FifoOrderAndProgress :=
  ⟨fun k _ _ _ _ hinv hrun => balance_of_runLedger k hinv hrun, runLedger_of_script⟩

end Sys2Proof.Machine

/-!
PROOFS. The exceptions of 60_exceptions.md: a model fault voids its request and ends the run (R305), and AUDIO reaches
nothing but the queue (R313).
-/
namespace Sys2Proof.Machine

/-! ### Model faults (R305) -/

/-- A completed request keeps `S.FAULT`: only raising a fault writes it (10_state.md R40). -/
theorem fault_of_effect {i : Instr} {s s' : State} (heff : Effect i s s') : s'.fault = s.fault := by
  by_cases hflush : flushes i = true
  · rw [frame_of_flushes hflush heff]
  cases i with
  | fifowr xs =>
    obtain ⟨_, rfl⟩ := fifoAppend_ok_iff.1 heff
    rfl
  | _ => simp_all [Effect, flushes, Instr.command]

/-- A faulted state has no step. -/
theorem step_of_faulted {s : State} {f : FaultRecord} (hfault : s.fault = some f) :
    step s = .fault (.quiescent f.kind) := by
  simp only [step, hfault]

/-- Settles O10: every instruction either raises a fault, which gives no response, or answers on the state of its effect,
which keeps `S.FAULT`. -/
theorem faultVoidsTheRequest : Obligations.FaultVoidsTheRequest := by
  refine ⟨fun i s => ?_, fun _ _ => step_of_faulted⟩
  obtain ⟨t, hexec⟩ := exec_total i s
  refine ⟨t, hexec, ?_⟩
  obtain ⟨k, rfl⟩ | ⟨r, s', rfl, heff⟩ := exec_effect hexec
  · exact ⟨fun _ => ⟨k, rfl⟩, fun hresp => absurd (State.raise_resp s k) hresp⟩
  · have hkept := fault_of_effect heff
    exact ⟨nofun, fun _ => hkept⟩

/-! ### The agents share only the queue (R313) -/

/-- The one request AUDIO gets answered is a drain (30_encoding.md R96). -/
theorem eq_fiford_of_audio_answer {i : Instr} {s t : State} {r : Response} (hwf : i.wellFormed = true)
    (haudio : s.cur.agent = .audio) (hexec : exec i s = .next t) (hresp : t.resp = some r) : ∃ n, i = .fiford n := by
  by_contra hother
  have hsim : agentOf i = .sim := agentOf_of_ne_fiford (not_exists.1 hother)
  have hrow := agent_of_answer hwf hexec hresp
  rw [haudio, hsim] at hrow
  cases hrow

/-- Settles O18: AUDIO's request faults, as an illegal word or in its execution, or it is a drain, which drops the front of
the queue. -/
theorem audioTouchesOnlyTheQueue : Obligations.AudioTouchesOnlyTheQueue := by
  intro s t r rest hreq haudio hstep
  obtain ⟨_, ⟨hidle, _⟩ | ⟨r', rest', hreq', hissued⟩⟩ := step_next hstep
  · cases hreq.symm.trans hidle
  cases hreq.symm.trans hreq'
  obtain ⟨_, _, rfl⟩ | ⟨i, hdec, hexec⟩ := hissued
  · exact ⟨rfl, List.suffix_rfl⟩
  obtain ⟨k, rfl⟩ | ⟨resp, s', rfl, heff⟩ := exec_effect hexec
  · exact ⟨rfl, List.suffix_rfl⟩
  · obtain ⟨n, rfl⟩ := eq_fiford_of_audio_answer (isReadFrom_of_decode hdec).wellFormed haudio hexec rfl
    obtain ⟨_, rfl⟩ := heff
    exact ⟨rfl, List.drop_suffix _ _⟩

end Sys2Proof.Machine

/-!
PROOFS. Timing and flush targets of 70_reset_and_hazards.md: the ticks of a request (R342), and FRAME, whose target is the
cycle counter (R336).
-/
namespace Sys2Proof.Machine

/-! ### The ticks of a request (R342) -/

/-- A tick below the counter's last value does not wrap (10_state.md R30). -/
theorem toNat_cycles_add_one {c : Cycle} (h : c ≠ Config.cycleMax) : (c + 1).toNat = c.toNat + 1 := by
  have hroom : c.toNat + 1 < 2 ^ 64 := Nat.lt_of_not_le (mt eq_cycleMax_of_no_room h)
  exact BitVec.toNat_add_of_lt hroom

/-- A completed request advances the counter by its ticks: a flush and an append keep it, and each bus byte access is one
tick. -/
theorem toNat_cycles_of_effect {i : Instr} {s s' : State} (heff : Effect i s s') :
    s'.cycles.toNat = s.cycles.toNat + ticksOf i := by
  by_cases hflush : flushes i = true
  · rw [frame_of_flushes hflush heff]
    cases i with
    | rd8 | wr8 | fetch | push8 | pop8 | rd16 | wr16 | push16 | pop16 => cases hflush
    | _ => rfl
  cases i with
  | rd8 | wr8 | fetch | push8 | pop8 =>
    obtain ⟨hfits, rfl⟩ := heff
    exact toNat_cycles_add_one hfits
  | rd16 | wr16 | push16 | pop16 =>
    obtain ⟨hfirst, hsecond, rfl⟩ := heff
    exact (toNat_cycles_add_one hsecond).trans (congrArg (· + 1) (toNat_cycles_add_one hfirst))
  | _ => simp_all [Effect, flushes, Instr.command, fifoAppend_ok_iff, ticksOf]

/-- Settles O14: a fault keeps the counter, and an answered request advances it by `ticksOf`, which is 0 but for the nine
instructions that access the bus. -/
theorem ticksPerRequest : Obligations.TicksPerRequest := by
  intro i s t hexec
  obtain ⟨k, rfl⟩ | ⟨r, s', rfl, heff⟩ := exec_effect hexec
  · exact ⟨fun _ => rfl, fun hanswer => absurd (State.raise_resp s k) hanswer⟩
  have hticks := toNat_cycles_of_effect heff
  refine ⟨nofun, fun _ => ⟨?_, ?_, ?_⟩⟩
  · rintro (⟨a, rfl⟩ | ⟨a, v, rfl⟩ | rfl | ⟨v, rfl⟩ | rfl) <;> exact hticks
  · rintro (⟨a, rfl⟩ | ⟨a, v, rfl⟩ | ⟨v, rfl⟩ | rfl) <;> exact hticks
  · intro hrd8 hwr8 hfetch hpush8 hpop8 hrd16 hwr16 hpush16 hpop16
    cases i with
    | rd8 a => exact absurd rfl (hrd8 a)
    | wr8 a v => exact absurd rfl (hwr8 a v)
    | fetch => exact absurd rfl hfetch
    | push8 v => exact absurd rfl (hpush8 v)
    | pop8 => exact absurd rfl hpop8
    | rd16 a => exact absurd rfl (hrd16 a)
    | wr16 a v => exact absurd rfl (hwr16 a v)
    | push16 v => exact absurd rfl (hpush16 v)
    | pop16 => exact absurd rfl hpop16
    | _ => exact BitVec.eq_of_toNat_eq hticks

/-! ### FRAME (R336) -/

theorem exec_getcyc {s : State} (hsim : s.cur.agent = .sim) :
    exec .getcyc s = .next (s.respond (Response.value s.cycles [])) := perform_ok hsim

/-- A step that issues `GETCYC` answers on the state it was issued in. -/
theorem step_getcyc {s : State} {rest : List Request} (hfault : s.fault = none)
    (hreq : s.requests = encode .getcyc :: rest) :
    step s = .next (State.respond { s with requests := rest, cur := encode .getcyc } (Response.value s.cycles [])) :=
  (stepRunsDecodedInstruction s _ _ _ hfault hreq (decodeOfEncode .getcyc rfl).1).trans (exec_getcyc rfl)

/-- A step that issues `RUN` to a target not below the watermark flushes to it, and but for the flush's watermark and queue
answers on the state it was issued in (42_apu_orchestrator.md R216). -/
theorem step_run {c : Cycle} {s : State} {rest : List Request} (hfault : s.fault = none)
    (hreq : s.requests = encode (.run c) :: rest) (hwm : s.wm ≤ c) (hfifo : s.att = true → s.fexists = true) :
    ∃ ev q, step s = .next
      (State.respond { s with requests := rest, cur := encode (.run c), wm := c, q := q } (Response.events ev)) := by
  have hstep := stepRunsDecodedInstruction s _ _ _ hfault hreq (decodeOfEncode (.run c) rfl).1
  obtain ⟨ev, q, hflush⟩ :=
    flush_total (s := { s with requests := rest, cur := encode (.run c) }) (convert s.conversion) hwm hfifo
  exact ⟨ev, q, hstep.trans (exec_run_of_flush rfl hflush)⟩

/-- Settles O55: `GETCYC` keeps the counter and the watermark, so the target of the `RUN` after it is the counter, which is
not below the watermark. -/
theorem frameNeverRewinds : Obligations.FrameNeverRewinds := by
  intro s rest hfault hwm hfifo hreq
  have hgetcyc := step_getcyc hfault hreq
  obtain ⟨ev, q, hrun⟩ := step_run (c := s.cycles) (rest := rest)
    (s := State.respond { s with requests := encode (.run s.cycles) :: rest, cur := encode .getcyc }
      (Response.value s.cycles [])) hfault rfl hwm hfifo
  have hframe := (run_succ_of_step (M := Sys2Proof.core) hgetcyc 1).trans (run_succ_of_step (M := Sys2Proof.core) hrun 0)
  exact ⟨_, hframe, hfault, rfl, rfl, rfl⟩

end Sys2Proof.Machine
